-- ==== Sys2Proof/Word.lean ====
section
/-! DEFINITION. The word types of the block (R7, R10): bytes, 16-bit CPU addresses, and a memory as a list
of (address, byte) cells. -/

namespace Sys2Proof

/-- `u8` of R10: register contents and memory bytes. -/
abbrev Byte := BitVec 8

/-- A CPU address (R70): 16 bits, so address arithmetic wraps modulo 65536. -/
abbrev Addr := BitVec 16

/-- The contents of one memory: cells with strictly rising addresses, none holding 0x00
(`Memory.wf` in WellFormed.lean). -/
abbrev Memory := List Host.Cell

/-- `hi :: lo` of R10 and R86. -/
abbrev word (hi lo : Byte) : Addr := hi ++ lo

/-- Bits 15:8 of an address. -/
abbrev hiByte (a : Addr) : Byte := a.extractLsb' 8 8

/-- Bits 7:0 of an address. -/
abbrev loByte (a : Addr) : Byte := a.extractLsb' 0 8

end Sys2Proof
end

