-- ==== Sys2Proof/Config.lean ====
section
/-! DEFINITION. What a run of the block takes as a parameter (R8), and the free values. The parameters are plain data
that State carries and no step changes, so that every statement about every state is a statement about every
parameter (log entry 1). -/

namespace Sys2Proof

/-- The cartridge's nametable mirroring mode (R78, R323). -/
inductive Mirroring where
  | horizontal
  | vertical
deriving DecidableEq, Repr

/-- A cartridge with the reference mapper (R79, R80): bank counts, image contents, mirroring mode. -/
structure Cartridge where
  /-- PRG bank count, in 16 KB units. -/
  prgBanks : Nat
  /-- PRG image, keyed by offset. -/
  prg : Memory
  /-- CHR bank count, in 8 KB units. -/
  chrBanks : Nat
  /-- CHR image, keyed by offset. -/
  chr : Memory
  mirroring : Mirroring
deriving DecidableEq, Repr

/-- The numeric parameters of R8. -/
structure Params where
  /-- `ILLEGAL_CYCLES`: 256 entries indexed by opcode, used at the 105 illegal values; an entry `k` is the count `k + 1`,
  so the range 1 to 8 of R282 holds by type. -/
  illegalCycles : List (Fin 8)
  /-- `GRAY_AND_MASK`. -/
  grayMask : BitVec 6
deriving DecidableEq, Repr

namespace Config

/-- The default table of R125, row by row of the opcode map, each entry one less than the count; 0 at legal opcodes,
where it is not used. -/
def illegalCycles : List (Fin 8) :=
   [0, 0, 1, 7, 2, 0, 0, 4, 0, 0, 0, 1, 3, 0, 0, 5] ++
   [0, 0, 1, 7, 3, 0, 0, 5, 0, 0, 1, 6, 3, 0, 0, 6] ++
   [0, 0, 1, 7, 0, 0, 0, 4, 0, 0, 0, 1, 0, 0, 0, 5] ++
   [0, 0, 1, 7, 3, 0, 0, 5, 0, 0, 1, 6, 3, 0, 0, 6] ++
   [0, 0, 1, 7, 2, 0, 0, 4, 0, 0, 0, 1, 0, 0, 0, 5] ++
   [0, 0, 1, 7, 3, 0, 0, 5, 0, 0, 1, 6, 3, 0, 0, 6] ++
   [0, 0, 1, 7, 2, 0, 0, 4, 0, 0, 0, 1, 0, 0, 0, 5] ++
   [0, 0, 1, 7, 3, 0, 0, 5, 0, 0, 1, 6, 3, 0, 0, 6] ++
   [1, 0, 1, 5, 0, 0, 0, 2, 0, 1, 0, 1, 0, 0, 0, 3] ++
   [0, 0, 1, 5, 0, 0, 0, 3, 0, 0, 0, 4, 4, 0, 4, 4] ++
   [0, 0, 0, 5, 0, 0, 0, 2, 0, 0, 0, 1, 0, 0, 0, 3] ++
   [0, 0, 1, 4, 0, 0, 0, 3, 0, 0, 0, 3, 0, 0, 0, 3] ++
   [0, 0, 1, 7, 0, 0, 0, 4, 0, 0, 0, 1, 0, 0, 0, 5] ++
   [0, 0, 1, 7, 3, 0, 0, 5, 0, 0, 1, 6, 3, 0, 0, 6] ++
   [0, 0, 1, 7, 0, 0, 0, 4, 0, 0, 0, 1, 0, 0, 0, 5] ++
   [0, 0, 1, 7, 3, 0, 0, 5, 0, 0, 1, 6, 3, 0, 0, 6]

/-- The defaults of R8: `ILLEGAL_CYCLES` of R125 and `GRAY_AND_MASK` 0x30. -/
def params : Params := { illegalCycles := illegalCycles, grayMask := 0x30 }

/-- The zero-filled cartridge of `State.reset`, of the shape the spec's vectors use: two PRG banks, one CHR bank,
HORIZONTAL. DESIGN CHOICE, log entry 2: unsafe. -/
def blankCartridge : Cartridge :=
  { prgBanks := 2, prg := [], chrBanks := 1, chr := [], mirroring := .horizontal }

/-- FREE VALUE (log entries 9, 10): the n-th byte the spec does not state. Safe: nothing is known of it. -/
opaque freeByte : Nat → Byte

/-- FREE VALUE (log entry 11): whether nametables mirror horizontally while no cartridge is inserted, of which R82 says it
would be undefined. Which of the two modes it is, nothing tells. -/
opaque noCartridgeHorizontal : Bool

end Config

end Sys2Proof
end

