-- ==== Sys2Proof/Syntax.lean ====
section
/-! DEFINITION. The instructions: one constructor per row of the opcode table (R124; the 105 illegal opcodes R125).
An operand is the byte or the little-endian word that follows the opcode (R122): `v` immediate, `zp` zero-page
address or pointer base, `disp` branch displacement, `addr` absolute address, `ptr` pointer. -/

namespace Sys2Proof

/-- The 256 rows of R124, by mnemonic; a constructor's suffix is the addressing-mode tag of R121. -/
inductive Instr where
  -- LDA (R180)
  | ldaImm (v : Byte)
  | ldaZp0 (zp : Byte)
  | ldaZpx (zp : Byte)
  | ldaAbs (addr : Addr)
  | ldaAbx (addr : Addr)
  | ldaAby (addr : Addr)
  | ldaIzx (zp : Byte)
  | ldaIzy (zp : Byte)
  -- LDX (R181)
  | ldxImm (v : Byte)
  | ldxZp0 (zp : Byte)
  | ldxZpy (zp : Byte)
  | ldxAbs (addr : Addr)
  | ldxAby (addr : Addr)
  -- LDY (R182)
  | ldyImm (v : Byte)
  | ldyZp0 (zp : Byte)
  | ldyZpx (zp : Byte)
  | ldyAbs (addr : Addr)
  | ldyAbx (addr : Addr)
  -- STA (R183)
  | staZp0 (zp : Byte)
  | staZpx (zp : Byte)
  | staAbs (addr : Addr)
  | staAbx (addr : Addr)
  | staAby (addr : Addr)
  | staIzx (zp : Byte)
  | staIzy (zp : Byte)
  -- STX (R184)
  | stxZp0 (zp : Byte)
  | stxZpy (zp : Byte)
  | stxAbs (addr : Addr)
  -- STY (R185)
  | styZp0 (zp : Byte)
  | styZpx (zp : Byte)
  | styAbs (addr : Addr)
  -- TAX (R186)
  | tax
  -- TAY (R187)
  | tay
  -- TXA (R188)
  | txa
  -- TYA (R189)
  | tya
  -- TSX (R190)
  | tsx
  -- TXS (R191)
  | txs
  -- ADC (R203)
  | adcImm (v : Byte)
  | adcZp0 (zp : Byte)
  | adcZpx (zp : Byte)
  | adcAbs (addr : Addr)
  | adcAbx (addr : Addr)
  | adcAby (addr : Addr)
  | adcIzx (zp : Byte)
  | adcIzy (zp : Byte)
  -- SBC (R204)
  | sbcImm (v : Byte)
  | sbcZp0 (zp : Byte)
  | sbcZpx (zp : Byte)
  | sbcAbs (addr : Addr)
  | sbcAbx (addr : Addr)
  | sbcAby (addr : Addr)
  | sbcIzx (zp : Byte)
  | sbcIzy (zp : Byte)
  -- CMP (R205)
  | cmpImm (v : Byte)
  | cmpZp0 (zp : Byte)
  | cmpZpx (zp : Byte)
  | cmpAbs (addr : Addr)
  | cmpAbx (addr : Addr)
  | cmpAby (addr : Addr)
  | cmpIzx (zp : Byte)
  | cmpIzy (zp : Byte)
  -- CPX (R206)
  | cpxImm (v : Byte)
  | cpxZp0 (zp : Byte)
  | cpxAbs (addr : Addr)
  -- CPY (R207)
  | cpyImm (v : Byte)
  | cpyZp0 (zp : Byte)
  | cpyAbs (addr : Addr)
  -- AND (R208)
  | andImm (v : Byte)
  | andZp0 (zp : Byte)
  | andZpx (zp : Byte)
  | andAbs (addr : Addr)
  | andAbx (addr : Addr)
  | andAby (addr : Addr)
  | andIzx (zp : Byte)
  | andIzy (zp : Byte)
  -- ORA (R209)
  | oraImm (v : Byte)
  | oraZp0 (zp : Byte)
  | oraZpx (zp : Byte)
  | oraAbs (addr : Addr)
  | oraAbx (addr : Addr)
  | oraAby (addr : Addr)
  | oraIzx (zp : Byte)
  | oraIzy (zp : Byte)
  -- EOR (R210)
  | eorImm (v : Byte)
  | eorZp0 (zp : Byte)
  | eorZpx (zp : Byte)
  | eorAbs (addr : Addr)
  | eorAbx (addr : Addr)
  | eorAby (addr : Addr)
  | eorIzx (zp : Byte)
  | eorIzy (zp : Byte)
  -- BIT (R211)
  | bitZp0 (zp : Byte)
  | bitAbs (addr : Addr)
  -- INC (R212)
  | incZp0 (zp : Byte)
  | incZpx (zp : Byte)
  | incAbs (addr : Addr)
  | incAbx (addr : Addr)
  -- DEC (R213)
  | decZp0 (zp : Byte)
  | decZpx (zp : Byte)
  | decAbs (addr : Addr)
  | decAbx (addr : Addr)
  -- INX (R214)
  | inx
  -- INY (R215)
  | iny
  -- DEX (R216)
  | dex
  -- DEY (R217)
  | dey
  -- ASL (R230)
  | aslAcc
  | aslZp0 (zp : Byte)
  | aslZpx (zp : Byte)
  | aslAbs (addr : Addr)
  | aslAbx (addr : Addr)
  -- LSR (R231)
  | lsrAcc
  | lsrZp0 (zp : Byte)
  | lsrZpx (zp : Byte)
  | lsrAbs (addr : Addr)
  | lsrAbx (addr : Addr)
  -- ROL (R232)
  | rolAcc
  | rolZp0 (zp : Byte)
  | rolZpx (zp : Byte)
  | rolAbs (addr : Addr)
  | rolAbx (addr : Addr)
  -- ROR (R233)
  | rorAcc
  | rorZp0 (zp : Byte)
  | rorZpx (zp : Byte)
  | rorAbs (addr : Addr)
  | rorAbx (addr : Addr)
  -- BCC (R242)
  | bcc (disp : Byte)
  -- BCS (R243)
  | bcs (disp : Byte)
  -- BEQ (R244)
  | beq (disp : Byte)
  -- BNE (R245)
  | bne (disp : Byte)
  -- BMI (R246)
  | bmi (disp : Byte)
  -- BPL (R247)
  | bpl (disp : Byte)
  -- BVC (R248)
  | bvc (disp : Byte)
  -- BVS (R249)
  | bvs (disp : Byte)
  -- JMP (R252)
  | jmpAbs (addr : Addr)
  | jmpInd (ptr : Addr)
  -- JSR (R250)
  | jsr (addr : Addr)
  -- RTS (R251)
  | rts
  -- PHA (R260)
  | pha
  -- PHP (R261)
  | php
  -- PLA (R262)
  | pla
  -- PLP (R263)
  | plp
  -- CLC (R270)
  | clc
  -- SEC (R271)
  | sec
  -- CLI (R272)
  | cli
  -- SEI (R273)
  | sei
  -- CLV (R274)
  | clv
  -- CLD (R275)
  | cld
  -- SED (R276)
  | sed
  -- BRK (R277)
  | brk
  -- RTI (R278)
  | rti
  -- NOP (R279)
  | nop
  -- illegal opcodes (R125, R282): one-byte no-ops
  | ill02
  | ill03
  | ill04
  | ill07
  | ill0B
  | ill0C
  | ill0F
  | ill12
  | ill13
  | ill14
  | ill17
  | ill1A
  | ill1B
  | ill1C
  | ill1F
  | ill22
  | ill23
  | ill27
  | ill2B
  | ill2F
  | ill32
  | ill33
  | ill34
  | ill37
  | ill3A
  | ill3B
  | ill3C
  | ill3F
  | ill42
  | ill43
  | ill44
  | ill47
  | ill4B
  | ill4F
  | ill52
  | ill53
  | ill54
  | ill57
  | ill5A
  | ill5B
  | ill5C
  | ill5F
  | ill62
  | ill63
  | ill64
  | ill67
  | ill6B
  | ill6F
  | ill72
  | ill73
  | ill74
  | ill77
  | ill7A
  | ill7B
  | ill7C
  | ill7F
  | ill80
  | ill82
  | ill83
  | ill87
  | ill89
  | ill8B
  | ill8F
  | ill92
  | ill93
  | ill97
  | ill9B
  | ill9C
  | ill9E
  | ill9F
  | illA3
  | illA7
  | illAB
  | illAF
  | illB2
  | illB3
  | illB7
  | illBB
  | illBF
  | illC2
  | illC3
  | illC7
  | illCB
  | illCF
  | illD2
  | illD3
  | illD4
  | illD7
  | illDA
  | illDB
  | illDC
  | illDF
  | illE2
  | illE3
  | illE7
  | illEB
  | illEF
  | illF2
  | illF3
  | illF4
  | illF7
  | illFA
  | illFB
  | illFC
  | illFF
deriving DecidableEq, Repr

end Sys2Proof
end

