-- ==== Sys2Proof/WellFormed.lean ====
section
/-! DEFINITION. Well-formedness, all of it decidable: of memories, cartridges, parameters and instructions. -/

namespace Sys2Proof

/-- Every address of the list is below that of the cell after it. -/
def Memory.rising : Memory → Bool
  | [] => true
  | [_] => true
  | c :: d :: rest => decide (c.1 < d.1) && Memory.rising (d :: rest)

/-- No cell holds 0x00, which is what an unlisted address reads as (log entry 5). -/
def Memory.noZero (m : Memory) : Bool := m.all fun c => c.2 != 0

/-- The canonical form of a memory: equal contents are equal lists. -/
def Memory.wf (m : Memory) : Bool := m.rising && m.noZero

/-- Every cell lies below `n`, the size of the memory. -/
def Memory.below (m : Memory) (n : Nat) : Bool := m.all fun c => decide (c.1 < n)

/-- A memory of `n` bytes: canonical, and no cell outside it (R325). -/
def Memory.wfOf (n : Nat) (m : Memory) : Bool := m.wf && m.below n

/-- A validly constructed cartridge (R78): at least one PRG bank, both images canonical and inside their banks. -/
def Cartridge.wf (c : Cartridge) : Bool :=
  decide (1 ≤ c.prgBanks) && Memory.wfOf (16384 * c.prgBanks) c.prg && Memory.wfOf (8192 * c.chrBanks) c.chr

/-- `ILLEGAL_CYCLES` has an entry for every opcode byte (R8, R125). -/
def Params.wf (p : Params) : Bool := decide (p.illegalCycles.length = 256)

/-- Every term of `Instr` is well formed: R120 and R122 put no condition on an operand beyond its width, which its type
carries, and R128 leaves no opcode without a row. -/
def Instr.wellFormed (_ : Instr) : Bool := true

end Sys2Proof
end

