-- ==== Sys2Proof/Decode.lean ====
section
/-! DEFINITION. The instruction table (R124) read in both directions: `Instr.row` and the encoder go from an instruction
to its opcode, mode and base cycle count; `opcodeMap` and the decoder go from the opcode byte to the instruction. The two
tables are written separately, row by row. -/

namespace Sys2Proof

/-- The 56 documented mnemonics, and the illegal opcodes (R124, R125). -/
inductive Mnemonic where
  | adc | and | asl | bcc | bcs | beq | bit | bmi | bne | bpl | brk | bvc | bvs | clc | cld | cli | clv | cmp | cpx | cpy | dec | dex | dey | eor | inc | inx | iny | jmp | jsr | lda | ldx | ldy | lsr | nop | ora | pha | php | pla | plp | rol | ror | rti | rts | sbc | sec | sed | sei | sta | stx | sty | tax | tay | tsx | txa | txs | tya
  | illegal
deriving DecidableEq, Repr

/-- An operand in its addressing mode (R121). -/
inductive Operand where
  | imp
  | acc
  | imm (v : Byte)
  | zp0 (zp : Byte)
  | zpx (zp : Byte)
  | zpy (zp : Byte)
  | rel (disp : Byte)
  | abs (addr : Addr)
  | abx (addr : Addr)
  | aby (addr : Addr)
  | ind (ptr : Addr)
  | izx (zp : Byte)
  | izy (zp : Byte)
deriving DecidableEq, Repr

/-- The operand bytes that follow the opcode: none, one, or two with the low byte first (R121, R122). -/
def Operand.bytes : Operand → List Byte
  | .imp | .acc => []
  | .imm b | .zp0 b | .zpx b | .zpy b | .rel b | .izx b | .izy b => [b]
  | .abs a | .abx a | .aby a | .ind a => [loByte a, hiByte a]

/-- A row of R124 with its operand filled in: opcode byte, mnemonic, mode and operand, base cycle count (0 for an illegal
opcode, whose count is the parameter `ILLEGAL_CYCLES`). -/
structure Row where
  opcode : Byte
  mnemonic : Mnemonic
  operand : Operand
  base : Nat
deriving DecidableEq, Repr

/-- The row of R124 that an instruction is. -/
def Instr.row : Instr → Row
  | .ldaImm a => ⟨0xA9, .lda, .imm a, 2⟩
  | .ldaZp0 a => ⟨0xA5, .lda, .zp0 a, 3⟩
  | .ldaZpx a => ⟨0xB5, .lda, .zpx a, 4⟩
  | .ldaAbs a => ⟨0xAD, .lda, .abs a, 4⟩
  | .ldaAbx a => ⟨0xBD, .lda, .abx a, 4⟩
  | .ldaAby a => ⟨0xB9, .lda, .aby a, 4⟩
  | .ldaIzx a => ⟨0xA1, .lda, .izx a, 6⟩
  | .ldaIzy a => ⟨0xB1, .lda, .izy a, 5⟩
  | .ldxImm a => ⟨0xA2, .ldx, .imm a, 2⟩
  | .ldxZp0 a => ⟨0xA6, .ldx, .zp0 a, 3⟩
  | .ldxZpy a => ⟨0xB6, .ldx, .zpy a, 4⟩
  | .ldxAbs a => ⟨0xAE, .ldx, .abs a, 4⟩
  | .ldxAby a => ⟨0xBE, .ldx, .aby a, 4⟩
  | .ldyImm a => ⟨0xA0, .ldy, .imm a, 2⟩
  | .ldyZp0 a => ⟨0xA4, .ldy, .zp0 a, 3⟩
  | .ldyZpx a => ⟨0xB4, .ldy, .zpx a, 4⟩
  | .ldyAbs a => ⟨0xAC, .ldy, .abs a, 4⟩
  | .ldyAbx a => ⟨0xBC, .ldy, .abx a, 4⟩
  | .staZp0 a => ⟨0x85, .sta, .zp0 a, 3⟩
  | .staZpx a => ⟨0x95, .sta, .zpx a, 4⟩
  | .staAbs a => ⟨0x8D, .sta, .abs a, 4⟩
  | .staAbx a => ⟨0x9D, .sta, .abx a, 5⟩
  | .staAby a => ⟨0x99, .sta, .aby a, 5⟩
  | .staIzx a => ⟨0x81, .sta, .izx a, 6⟩
  | .staIzy a => ⟨0x91, .sta, .izy a, 6⟩
  | .stxZp0 a => ⟨0x86, .stx, .zp0 a, 3⟩
  | .stxZpy a => ⟨0x96, .stx, .zpy a, 4⟩
  | .stxAbs a => ⟨0x8E, .stx, .abs a, 4⟩
  | .styZp0 a => ⟨0x84, .sty, .zp0 a, 3⟩
  | .styZpx a => ⟨0x94, .sty, .zpx a, 4⟩
  | .styAbs a => ⟨0x8C, .sty, .abs a, 4⟩
  | .tax => ⟨0xAA, .tax, .imp, 2⟩
  | .tay => ⟨0xA8, .tay, .imp, 2⟩
  | .txa => ⟨0x8A, .txa, .imp, 2⟩
  | .tya => ⟨0x98, .tya, .imp, 2⟩
  | .tsx => ⟨0xBA, .tsx, .imp, 2⟩
  | .txs => ⟨0x9A, .txs, .imp, 2⟩
  | .adcImm a => ⟨0x69, .adc, .imm a, 2⟩
  | .adcZp0 a => ⟨0x65, .adc, .zp0 a, 3⟩
  | .adcZpx a => ⟨0x75, .adc, .zpx a, 4⟩
  | .adcAbs a => ⟨0x6D, .adc, .abs a, 4⟩
  | .adcAbx a => ⟨0x7D, .adc, .abx a, 4⟩
  | .adcAby a => ⟨0x79, .adc, .aby a, 4⟩
  | .adcIzx a => ⟨0x61, .adc, .izx a, 6⟩
  | .adcIzy a => ⟨0x71, .adc, .izy a, 5⟩
  | .sbcImm a => ⟨0xE9, .sbc, .imm a, 2⟩
  | .sbcZp0 a => ⟨0xE5, .sbc, .zp0 a, 3⟩
  | .sbcZpx a => ⟨0xF5, .sbc, .zpx a, 4⟩
  | .sbcAbs a => ⟨0xED, .sbc, .abs a, 4⟩
  | .sbcAbx a => ⟨0xFD, .sbc, .abx a, 4⟩
  | .sbcAby a => ⟨0xF9, .sbc, .aby a, 4⟩
  | .sbcIzx a => ⟨0xE1, .sbc, .izx a, 6⟩
  | .sbcIzy a => ⟨0xF1, .sbc, .izy a, 5⟩
  | .cmpImm a => ⟨0xC9, .cmp, .imm a, 2⟩
  | .cmpZp0 a => ⟨0xC5, .cmp, .zp0 a, 3⟩
  | .cmpZpx a => ⟨0xD5, .cmp, .zpx a, 4⟩
  | .cmpAbs a => ⟨0xCD, .cmp, .abs a, 4⟩
  | .cmpAbx a => ⟨0xDD, .cmp, .abx a, 4⟩
  | .cmpAby a => ⟨0xD9, .cmp, .aby a, 4⟩
  | .cmpIzx a => ⟨0xC1, .cmp, .izx a, 6⟩
  | .cmpIzy a => ⟨0xD1, .cmp, .izy a, 5⟩
  | .cpxImm a => ⟨0xE0, .cpx, .imm a, 2⟩
  | .cpxZp0 a => ⟨0xE4, .cpx, .zp0 a, 3⟩
  | .cpxAbs a => ⟨0xEC, .cpx, .abs a, 4⟩
  | .cpyImm a => ⟨0xC0, .cpy, .imm a, 2⟩
  | .cpyZp0 a => ⟨0xC4, .cpy, .zp0 a, 3⟩
  | .cpyAbs a => ⟨0xCC, .cpy, .abs a, 4⟩
  | .andImm a => ⟨0x29, .and, .imm a, 2⟩
  | .andZp0 a => ⟨0x25, .and, .zp0 a, 3⟩
  | .andZpx a => ⟨0x35, .and, .zpx a, 4⟩
  | .andAbs a => ⟨0x2D, .and, .abs a, 4⟩
  | .andAbx a => ⟨0x3D, .and, .abx a, 4⟩
  | .andAby a => ⟨0x39, .and, .aby a, 4⟩
  | .andIzx a => ⟨0x21, .and, .izx a, 6⟩
  | .andIzy a => ⟨0x31, .and, .izy a, 5⟩
  | .oraImm a => ⟨0x09, .ora, .imm a, 2⟩
  | .oraZp0 a => ⟨0x05, .ora, .zp0 a, 3⟩
  | .oraZpx a => ⟨0x15, .ora, .zpx a, 4⟩
  | .oraAbs a => ⟨0x0D, .ora, .abs a, 4⟩
  | .oraAbx a => ⟨0x1D, .ora, .abx a, 4⟩
  | .oraAby a => ⟨0x19, .ora, .aby a, 4⟩
  | .oraIzx a => ⟨0x01, .ora, .izx a, 6⟩
  | .oraIzy a => ⟨0x11, .ora, .izy a, 5⟩
  | .eorImm a => ⟨0x49, .eor, .imm a, 2⟩
  | .eorZp0 a => ⟨0x45, .eor, .zp0 a, 3⟩
  | .eorZpx a => ⟨0x55, .eor, .zpx a, 4⟩
  | .eorAbs a => ⟨0x4D, .eor, .abs a, 4⟩
  | .eorAbx a => ⟨0x5D, .eor, .abx a, 4⟩
  | .eorAby a => ⟨0x59, .eor, .aby a, 4⟩
  | .eorIzx a => ⟨0x41, .eor, .izx a, 6⟩
  | .eorIzy a => ⟨0x51, .eor, .izy a, 5⟩
  | .bitZp0 a => ⟨0x24, .bit, .zp0 a, 3⟩
  | .bitAbs a => ⟨0x2C, .bit, .abs a, 4⟩
  | .incZp0 a => ⟨0xE6, .inc, .zp0 a, 5⟩
  | .incZpx a => ⟨0xF6, .inc, .zpx a, 6⟩
  | .incAbs a => ⟨0xEE, .inc, .abs a, 6⟩
  | .incAbx a => ⟨0xFE, .inc, .abx a, 7⟩
  | .decZp0 a => ⟨0xC6, .dec, .zp0 a, 5⟩
  | .decZpx a => ⟨0xD6, .dec, .zpx a, 6⟩
  | .decAbs a => ⟨0xCE, .dec, .abs a, 6⟩
  | .decAbx a => ⟨0xDE, .dec, .abx a, 7⟩
  | .inx => ⟨0xE8, .inx, .imp, 2⟩
  | .iny => ⟨0xC8, .iny, .imp, 2⟩
  | .dex => ⟨0xCA, .dex, .imp, 2⟩
  | .dey => ⟨0x88, .dey, .imp, 2⟩
  | .aslAcc => ⟨0x0A, .asl, .acc, 2⟩
  | .aslZp0 a => ⟨0x06, .asl, .zp0 a, 5⟩
  | .aslZpx a => ⟨0x16, .asl, .zpx a, 6⟩
  | .aslAbs a => ⟨0x0E, .asl, .abs a, 6⟩
  | .aslAbx a => ⟨0x1E, .asl, .abx a, 7⟩
  | .lsrAcc => ⟨0x4A, .lsr, .acc, 2⟩
  | .lsrZp0 a => ⟨0x46, .lsr, .zp0 a, 5⟩
  | .lsrZpx a => ⟨0x56, .lsr, .zpx a, 6⟩
  | .lsrAbs a => ⟨0x4E, .lsr, .abs a, 6⟩
  | .lsrAbx a => ⟨0x5E, .lsr, .abx a, 7⟩
  | .rolAcc => ⟨0x2A, .rol, .acc, 2⟩
  | .rolZp0 a => ⟨0x26, .rol, .zp0 a, 5⟩
  | .rolZpx a => ⟨0x36, .rol, .zpx a, 6⟩
  | .rolAbs a => ⟨0x2E, .rol, .abs a, 6⟩
  | .rolAbx a => ⟨0x3E, .rol, .abx a, 7⟩
  | .rorAcc => ⟨0x6A, .ror, .acc, 2⟩
  | .rorZp0 a => ⟨0x66, .ror, .zp0 a, 5⟩
  | .rorZpx a => ⟨0x76, .ror, .zpx a, 6⟩
  | .rorAbs a => ⟨0x6E, .ror, .abs a, 6⟩
  | .rorAbx a => ⟨0x7E, .ror, .abx a, 7⟩
  | .bcc a => ⟨0x90, .bcc, .rel a, 2⟩
  | .bcs a => ⟨0xB0, .bcs, .rel a, 2⟩
  | .beq a => ⟨0xF0, .beq, .rel a, 2⟩
  | .bne a => ⟨0xD0, .bne, .rel a, 2⟩
  | .bmi a => ⟨0x30, .bmi, .rel a, 2⟩
  | .bpl a => ⟨0x10, .bpl, .rel a, 2⟩
  | .bvc a => ⟨0x50, .bvc, .rel a, 2⟩
  | .bvs a => ⟨0x70, .bvs, .rel a, 2⟩
  | .jmpAbs a => ⟨0x4C, .jmp, .abs a, 3⟩
  | .jmpInd a => ⟨0x6C, .jmp, .ind a, 5⟩
  | .jsr a => ⟨0x20, .jsr, .abs a, 6⟩
  | .rts => ⟨0x60, .rts, .imp, 6⟩
  | .pha => ⟨0x48, .pha, .imp, 3⟩
  | .php => ⟨0x08, .php, .imp, 3⟩
  | .pla => ⟨0x68, .pla, .imp, 4⟩
  | .plp => ⟨0x28, .plp, .imp, 4⟩
  | .clc => ⟨0x18, .clc, .imp, 2⟩
  | .sec => ⟨0x38, .sec, .imp, 2⟩
  | .cli => ⟨0x58, .cli, .imp, 2⟩
  | .sei => ⟨0x78, .sei, .imp, 2⟩
  | .clv => ⟨0xB8, .clv, .imp, 2⟩
  | .cld => ⟨0xD8, .cld, .imp, 2⟩
  | .sed => ⟨0xF8, .sed, .imp, 2⟩
  | .brk => ⟨0x00, .brk, .imp, 7⟩
  | .rti => ⟨0x40, .rti, .imp, 6⟩
  | .nop => ⟨0xEA, .nop, .imp, 2⟩
  | .ill02 => ⟨0x02, .illegal, .imp, 0⟩
  | .ill03 => ⟨0x03, .illegal, .imp, 0⟩
  | .ill04 => ⟨0x04, .illegal, .imp, 0⟩
  | .ill07 => ⟨0x07, .illegal, .imp, 0⟩
  | .ill0B => ⟨0x0B, .illegal, .imp, 0⟩
  | .ill0C => ⟨0x0C, .illegal, .imp, 0⟩
  | .ill0F => ⟨0x0F, .illegal, .imp, 0⟩
  | .ill12 => ⟨0x12, .illegal, .imp, 0⟩
  | .ill13 => ⟨0x13, .illegal, .imp, 0⟩
  | .ill14 => ⟨0x14, .illegal, .imp, 0⟩
  | .ill17 => ⟨0x17, .illegal, .imp, 0⟩
  | .ill1A => ⟨0x1A, .illegal, .imp, 0⟩
  | .ill1B => ⟨0x1B, .illegal, .imp, 0⟩
  | .ill1C => ⟨0x1C, .illegal, .imp, 0⟩
  | .ill1F => ⟨0x1F, .illegal, .imp, 0⟩
  | .ill22 => ⟨0x22, .illegal, .imp, 0⟩
  | .ill23 => ⟨0x23, .illegal, .imp, 0⟩
  | .ill27 => ⟨0x27, .illegal, .imp, 0⟩
  | .ill2B => ⟨0x2B, .illegal, .imp, 0⟩
  | .ill2F => ⟨0x2F, .illegal, .imp, 0⟩
  | .ill32 => ⟨0x32, .illegal, .imp, 0⟩
  | .ill33 => ⟨0x33, .illegal, .imp, 0⟩
  | .ill34 => ⟨0x34, .illegal, .imp, 0⟩
  | .ill37 => ⟨0x37, .illegal, .imp, 0⟩
  | .ill3A => ⟨0x3A, .illegal, .imp, 0⟩
  | .ill3B => ⟨0x3B, .illegal, .imp, 0⟩
  | .ill3C => ⟨0x3C, .illegal, .imp, 0⟩
  | .ill3F => ⟨0x3F, .illegal, .imp, 0⟩
  | .ill42 => ⟨0x42, .illegal, .imp, 0⟩
  | .ill43 => ⟨0x43, .illegal, .imp, 0⟩
  | .ill44 => ⟨0x44, .illegal, .imp, 0⟩
  | .ill47 => ⟨0x47, .illegal, .imp, 0⟩
  | .ill4B => ⟨0x4B, .illegal, .imp, 0⟩
  | .ill4F => ⟨0x4F, .illegal, .imp, 0⟩
  | .ill52 => ⟨0x52, .illegal, .imp, 0⟩
  | .ill53 => ⟨0x53, .illegal, .imp, 0⟩
  | .ill54 => ⟨0x54, .illegal, .imp, 0⟩
  | .ill57 => ⟨0x57, .illegal, .imp, 0⟩
  | .ill5A => ⟨0x5A, .illegal, .imp, 0⟩
  | .ill5B => ⟨0x5B, .illegal, .imp, 0⟩
  | .ill5C => ⟨0x5C, .illegal, .imp, 0⟩
  | .ill5F => ⟨0x5F, .illegal, .imp, 0⟩
  | .ill62 => ⟨0x62, .illegal, .imp, 0⟩
  | .ill63 => ⟨0x63, .illegal, .imp, 0⟩
  | .ill64 => ⟨0x64, .illegal, .imp, 0⟩
  | .ill67 => ⟨0x67, .illegal, .imp, 0⟩
  | .ill6B => ⟨0x6B, .illegal, .imp, 0⟩
  | .ill6F => ⟨0x6F, .illegal, .imp, 0⟩
  | .ill72 => ⟨0x72, .illegal, .imp, 0⟩
  | .ill73 => ⟨0x73, .illegal, .imp, 0⟩
  | .ill74 => ⟨0x74, .illegal, .imp, 0⟩
  | .ill77 => ⟨0x77, .illegal, .imp, 0⟩
  | .ill7A => ⟨0x7A, .illegal, .imp, 0⟩
  | .ill7B => ⟨0x7B, .illegal, .imp, 0⟩
  | .ill7C => ⟨0x7C, .illegal, .imp, 0⟩
  | .ill7F => ⟨0x7F, .illegal, .imp, 0⟩
  | .ill80 => ⟨0x80, .illegal, .imp, 0⟩
  | .ill82 => ⟨0x82, .illegal, .imp, 0⟩
  | .ill83 => ⟨0x83, .illegal, .imp, 0⟩
  | .ill87 => ⟨0x87, .illegal, .imp, 0⟩
  | .ill89 => ⟨0x89, .illegal, .imp, 0⟩
  | .ill8B => ⟨0x8B, .illegal, .imp, 0⟩
  | .ill8F => ⟨0x8F, .illegal, .imp, 0⟩
  | .ill92 => ⟨0x92, .illegal, .imp, 0⟩
  | .ill93 => ⟨0x93, .illegal, .imp, 0⟩
  | .ill97 => ⟨0x97, .illegal, .imp, 0⟩
  | .ill9B => ⟨0x9B, .illegal, .imp, 0⟩
  | .ill9C => ⟨0x9C, .illegal, .imp, 0⟩
  | .ill9E => ⟨0x9E, .illegal, .imp, 0⟩
  | .ill9F => ⟨0x9F, .illegal, .imp, 0⟩
  | .illA3 => ⟨0xA3, .illegal, .imp, 0⟩
  | .illA7 => ⟨0xA7, .illegal, .imp, 0⟩
  | .illAB => ⟨0xAB, .illegal, .imp, 0⟩
  | .illAF => ⟨0xAF, .illegal, .imp, 0⟩
  | .illB2 => ⟨0xB2, .illegal, .imp, 0⟩
  | .illB3 => ⟨0xB3, .illegal, .imp, 0⟩
  | .illB7 => ⟨0xB7, .illegal, .imp, 0⟩
  | .illBB => ⟨0xBB, .illegal, .imp, 0⟩
  | .illBF => ⟨0xBF, .illegal, .imp, 0⟩
  | .illC2 => ⟨0xC2, .illegal, .imp, 0⟩
  | .illC3 => ⟨0xC3, .illegal, .imp, 0⟩
  | .illC7 => ⟨0xC7, .illegal, .imp, 0⟩
  | .illCB => ⟨0xCB, .illegal, .imp, 0⟩
  | .illCF => ⟨0xCF, .illegal, .imp, 0⟩
  | .illD2 => ⟨0xD2, .illegal, .imp, 0⟩
  | .illD3 => ⟨0xD3, .illegal, .imp, 0⟩
  | .illD4 => ⟨0xD4, .illegal, .imp, 0⟩
  | .illD7 => ⟨0xD7, .illegal, .imp, 0⟩
  | .illDA => ⟨0xDA, .illegal, .imp, 0⟩
  | .illDB => ⟨0xDB, .illegal, .imp, 0⟩
  | .illDC => ⟨0xDC, .illegal, .imp, 0⟩
  | .illDF => ⟨0xDF, .illegal, .imp, 0⟩
  | .illE2 => ⟨0xE2, .illegal, .imp, 0⟩
  | .illE3 => ⟨0xE3, .illegal, .imp, 0⟩
  | .illE7 => ⟨0xE7, .illegal, .imp, 0⟩
  | .illEB => ⟨0xEB, .illegal, .imp, 0⟩
  | .illEF => ⟨0xEF, .illegal, .imp, 0⟩
  | .illF2 => ⟨0xF2, .illegal, .imp, 0⟩
  | .illF3 => ⟨0xF3, .illegal, .imp, 0⟩
  | .illF4 => ⟨0xF4, .illegal, .imp, 0⟩
  | .illF7 => ⟨0xF7, .illegal, .imp, 0⟩
  | .illFA => ⟨0xFA, .illegal, .imp, 0⟩
  | .illFB => ⟨0xFB, .illegal, .imp, 0⟩
  | .illFC => ⟨0xFC, .illegal, .imp, 0⟩
  | .illFF => ⟨0xFF, .illegal, .imp, 0⟩

/-- The bytes of an instruction in memory order: the opcode at the lowest address, then the operand bytes (R86, R120). -/
def encode (i : Instr) : List Byte := i.row.opcode :: i.row.operand.bytes

/-- How an opcode byte's instruction is completed by its operand bytes (R120, R121). -/
inductive Shape where
  | len1 (i : Instr)
  | len2 (f : Byte → Instr)
  | len3 (f : Addr → Instr)

/-- The opcode map of R124: row by high nibble, column by low nibble. -/
def opcodeMap : List (List Shape) :=
  [
   [ .len1 .brk, .len2 .oraIzx, .len1 .ill02, .len1 .ill03,
     .len1 .ill04, .len2 .oraZp0, .len2 .aslZp0, .len1 .ill07,
     .len1 .php, .len2 .oraImm, .len1 .aslAcc, .len1 .ill0B,
     .len1 .ill0C, .len3 .oraAbs, .len3 .aslAbs, .len1 .ill0F ],
   [ .len2 .bpl, .len2 .oraIzy, .len1 .ill12, .len1 .ill13,
     .len1 .ill14, .len2 .oraZpx, .len2 .aslZpx, .len1 .ill17,
     .len1 .clc, .len3 .oraAby, .len1 .ill1A, .len1 .ill1B,
     .len1 .ill1C, .len3 .oraAbx, .len3 .aslAbx, .len1 .ill1F ],
   [ .len3 .jsr, .len2 .andIzx, .len1 .ill22, .len1 .ill23,
     .len2 .bitZp0, .len2 .andZp0, .len2 .rolZp0, .len1 .ill27,
     .len1 .plp, .len2 .andImm, .len1 .rolAcc, .len1 .ill2B,
     .len3 .bitAbs, .len3 .andAbs, .len3 .rolAbs, .len1 .ill2F ],
   [ .len2 .bmi, .len2 .andIzy, .len1 .ill32, .len1 .ill33,
     .len1 .ill34, .len2 .andZpx, .len2 .rolZpx, .len1 .ill37,
     .len1 .sec, .len3 .andAby, .len1 .ill3A, .len1 .ill3B,
     .len1 .ill3C, .len3 .andAbx, .len3 .rolAbx, .len1 .ill3F ],
   [ .len1 .rti, .len2 .eorIzx, .len1 .ill42, .len1 .ill43,
     .len1 .ill44, .len2 .eorZp0, .len2 .lsrZp0, .len1 .ill47,
     .len1 .pha, .len2 .eorImm, .len1 .lsrAcc, .len1 .ill4B,
     .len3 .jmpAbs, .len3 .eorAbs, .len3 .lsrAbs, .len1 .ill4F ],
   [ .len2 .bvc, .len2 .eorIzy, .len1 .ill52, .len1 .ill53,
     .len1 .ill54, .len2 .eorZpx, .len2 .lsrZpx, .len1 .ill57,
     .len1 .cli, .len3 .eorAby, .len1 .ill5A, .len1 .ill5B,
     .len1 .ill5C, .len3 .eorAbx, .len3 .lsrAbx, .len1 .ill5F ],
   [ .len1 .rts, .len2 .adcIzx, .len1 .ill62, .len1 .ill63,
     .len1 .ill64, .len2 .adcZp0, .len2 .rorZp0, .len1 .ill67,
     .len1 .pla, .len2 .adcImm, .len1 .rorAcc, .len1 .ill6B,
     .len3 .jmpInd, .len3 .adcAbs, .len3 .rorAbs, .len1 .ill6F ],
   [ .len2 .bvs, .len2 .adcIzy, .len1 .ill72, .len1 .ill73,
     .len1 .ill74, .len2 .adcZpx, .len2 .rorZpx, .len1 .ill77,
     .len1 .sei, .len3 .adcAby, .len1 .ill7A, .len1 .ill7B,
     .len1 .ill7C, .len3 .adcAbx, .len3 .rorAbx, .len1 .ill7F ],
   [ .len1 .ill80, .len2 .staIzx, .len1 .ill82, .len1 .ill83,
     .len2 .styZp0, .len2 .staZp0, .len2 .stxZp0, .len1 .ill87,
     .len1 .dey, .len1 .ill89, .len1 .txa, .len1 .ill8B,
     .len3 .styAbs, .len3 .staAbs, .len3 .stxAbs, .len1 .ill8F ],
   [ .len2 .bcc, .len2 .staIzy, .len1 .ill92, .len1 .ill93,
     .len2 .styZpx, .len2 .staZpx, .len2 .stxZpy, .len1 .ill97,
     .len1 .tya, .len3 .staAby, .len1 .txs, .len1 .ill9B,
     .len1 .ill9C, .len3 .staAbx, .len1 .ill9E, .len1 .ill9F ],
   [ .len2 .ldyImm, .len2 .ldaIzx, .len2 .ldxImm, .len1 .illA3,
     .len2 .ldyZp0, .len2 .ldaZp0, .len2 .ldxZp0, .len1 .illA7,
     .len1 .tay, .len2 .ldaImm, .len1 .tax, .len1 .illAB,
     .len3 .ldyAbs, .len3 .ldaAbs, .len3 .ldxAbs, .len1 .illAF ],
   [ .len2 .bcs, .len2 .ldaIzy, .len1 .illB2, .len1 .illB3,
     .len2 .ldyZpx, .len2 .ldaZpx, .len2 .ldxZpy, .len1 .illB7,
     .len1 .clv, .len3 .ldaAby, .len1 .tsx, .len1 .illBB,
     .len3 .ldyAbx, .len3 .ldaAbx, .len3 .ldxAby, .len1 .illBF ],
   [ .len2 .cpyImm, .len2 .cmpIzx, .len1 .illC2, .len1 .illC3,
     .len2 .cpyZp0, .len2 .cmpZp0, .len2 .decZp0, .len1 .illC7,
     .len1 .iny, .len2 .cmpImm, .len1 .dex, .len1 .illCB,
     .len3 .cpyAbs, .len3 .cmpAbs, .len3 .decAbs, .len1 .illCF ],
   [ .len2 .bne, .len2 .cmpIzy, .len1 .illD2, .len1 .illD3,
     .len1 .illD4, .len2 .cmpZpx, .len2 .decZpx, .len1 .illD7,
     .len1 .cld, .len3 .cmpAby, .len1 .illDA, .len1 .illDB,
     .len1 .illDC, .len3 .cmpAbx, .len3 .decAbx, .len1 .illDF ],
   [ .len2 .cpxImm, .len2 .sbcIzx, .len1 .illE2, .len1 .illE3,
     .len2 .cpxZp0, .len2 .sbcZp0, .len2 .incZp0, .len1 .illE7,
     .len1 .inx, .len2 .sbcImm, .len1 .nop, .len1 .illEB,
     .len3 .cpxAbs, .len3 .sbcAbs, .len3 .incAbs, .len1 .illEF ],
   [ .len2 .beq, .len2 .sbcIzy, .len1 .illF2, .len1 .illF3,
     .len1 .illF4, .len2 .sbcZpx, .len2 .incZpx, .len1 .illF7,
     .len1 .sed, .len3 .sbcAby, .len1 .illFA, .len1 .illFB,
     .len1 .illFC, .len3 .sbcAbx, .len3 .incAbx, .len1 .illFF ] ]

/-- The row of the opcode map for an opcode byte. Decoding is total (R128): all 256 bytes have a cell. -/
def opcodeShape (op : Byte) : Shape :=
  ((opcodeMap.getD (op.toNat / 16) []).getD (op.toNat % 16) (.len1 .nop))

/-- Number of operand bytes that follow an opcode byte (R120, R121). -/
def operandCount (op : Byte) : Nat :=
  match opcodeShape op with
  | .len1 _ => 0
  | .len2 _ => 1
  | .len3 _ => 2

/-- The instruction of an opcode byte and the two bytes after it, of which it takes as many as its mode says; the low byte
of a word comes first (R122). -/
def instrOf (op b1 b2 : Byte) : Instr :=
  match opcodeShape op with
  | .len1 i => i
  | .len2 f => f b1
  | .len3 f => f (word b2 b1)

/-- Decode the first instruction of a list of bytes, and the rest of the list. `none` only when the list ends inside the
instruction: no byte value is refused (R128). -/
def decode : List Byte → Option (Instr × List Byte)
  | [] => none
  | op :: rest =>
    match opcodeShape op, rest with
    | .len1 i, rest => some (i, rest)
    | .len2 f, b1 :: rest => some (f b1, rest)
    | .len3 f, b1 :: b2 :: rest => some (f (word b2 b1), rest)
    | _, _ => none

/-- Byte `k` of an instruction numbered from its first byte's bit 0 (the numbering of the opcode table). -/
def tableByte (w k : Nat) : Byte := BitVec.ofNat 8 (w / 256 ^ k)

/-- The three bytes from the lowest address up of an instruction whose low `nbits` bits are `w`; the bits above are 0. -/
def tableBytes (nbits w : Nat) : List Byte :=
  let v := w % 2 ^ nbits
  [tableByte v 0, tableByte v 1, tableByte v 2]

/-- The instruction the decoder reads from a word of the opcode table. -/
def decodeTableWord (nbits w : Nat) : Option Instr := (decode (tableBytes nbits w)).map (·.1)

end Sys2Proof
end

