-- ==== Sys2Proof/Machine/State.lean ====
section
/-! DEFINITION. The state of the block as plain data (10_state.md): the CPU, the PPU, the Bus, the parameters and inputs
the block runs under, and the host's calls that wait to be made. -/

namespace Sys2Proof.Machine

/-- CPU state (R20 to R27). The scratch of R28 is local to the instruction step (D28, log entry 12). -/
structure Cpu where
  a : Byte
  x : Byte
  y : Byte
  /-- The stack is at 0x0100 + SP (R23). -/
  sp : Byte
  pc : Addr
  /-- Status register, bits C0 Z1 I2 D3 B4 U5 V6 N7 (R25). -/
  p : Byte
  /-- Remaining-cycle counter (R27): 0 means the next CPU tick fetches an opcode. -/
  cycles : Nat
deriving DecidableEq, Repr

/-- A record of the active-sprite buffer (R44) with its pattern shift registers (R45). -/
structure Sprite where
  y : Byte
  id : Byte
  attr : Byte
  /-- The horizontal counter (R44, R345). -/
  x : Byte
  patLo : Byte
  patHi : Byte
deriving DecidableEq, Repr

/-- The PPU status register: only its top three bits exist (R36). -/
structure PpuStatus where
  /-- Bit 7. -/
  verticalBlank : Bool
  /-- Bit 6. -/
  spriteZeroHit : Bool
  /-- Bit 5. -/
  spriteOverflow : Bool
deriving DecidableEq, Repr

/-- PPU state (R30 to R49). -/
structure Ppu where
  nt0 : Memory
  nt1 : Memory
  pal : Memory
  oam : Memory
  /-- The PPU's own CHR RAM (R33). -/
  pat : Memory
  ctrl : Byte
  mask : Byte
  status : PpuStatus
  v : BitVec 15
  t : BitVec 15
  fineX : BitVec 3
  /-- Write toggle: false, the next write to port 5 or 6 is the first of a pair (R39). -/
  w : Bool
  dataBuffer : Byte
  oamAddr : Byte
  bgNextId : Byte
  bgNextAttr : BitVec 2
  bgNextLsb : Byte
  bgNextMsb : Byte
  bgPatLo : BitVec 16
  bgPatHi : BitVec 16
  bgAttrLo : BitVec 16
  bgAttrHi : BitVec 16
  /-- The eight records of R44 and R45. -/
  spr : List Sprite
  sprCount : Nat
  zeroPossible : Bool
  /-- -1 to 260 (R47). -/
  scanline : Int
  /-- 0 to 340 (R47). -/
  cycle : Nat
  frameComplete : Bool
  nmiRequest : Bool
  /-- The output picture (R49): the 6-bit colour index of row r, column c is the byte at 256 * r + c. -/
  frame : Memory
  /-- The model's own counter of free values drawn (log entries 9, 10, 19). -/
  freeCount : Nat
deriving DecidableEq, Repr

/-- Bus state (R51 to R54). -/
structure Bus where
  ram : Memory
  /-- The system clock counter, unbounded (R52). -/
  clock : Nat
  dmaPage : Byte
  dmaAddr : Byte
  dmaData : Byte
  /-- A transfer is pending or running (R53). -/
  dmaTransfer : Bool
  /-- The alignment delay has not been served yet (R53). -/
  dmaDummy : Bool
  ctrlShift0 : Byte
  ctrlShift1 : Byte
deriving DecidableEq, Repr

/-- A call of the host surface (R417). -/
inductive HostCall where
  | busTick
  | busReset
  | insertCartridge (c : Cartridge)
  | cpuRead (a : Addr) (peek : Bool)
  | cpuWrite (a : Addr) (d : Byte)
  /-- The host writes `controller_state[0]` and `[1]` (R412). -/
  | setControllers (c0 c1 : Byte)
  | cpuTick
  | cpuReset
  | raiseIrq
  | raiseNmi
  | isInstructionComplete
  | ppuTick
  | ppuRead (port : BitVec 3) (peek : Bool)
  | ppuWrite (port : BitVec 3) (d : Byte)
  | takeFrameComplete
  | takeNmiRequest
  | getRenderedFrame
deriving DecidableEq, Repr

/-- What a host call returned (R417, R418). -/
inductive HostReply where
  | none
  | byte (b : Byte)
  | flag (b : Bool)
  /-- The 6-bit indices of the picture; the colour table is the host's (R49, D23). -/
  | picture (m : Memory)
deriving DecidableEq, Repr

/-- No fault: nothing in this block faults (R442, 93_implementation_defined.md). Nothing raises one; safe. -/
inductive Fault where
deriving DecidableEq, Repr

/-- Why a step has no meaning. -/
inductive Refusal where
  /-- Raised by an arm of exec for an instruction that has no meaning yet. Safe. No arm of this model raises it. -/
  | notModelled (mnemonic : String)
  /-- Raised by a step that makes a Bus tick while no cartridge is inserted (R82, D11, U10). Safe: the model stops where the
  spec asks a model to refuse. -/
  | noCartridge
  /-- Raised by a step that inserts a cartridge that is not validly constructed (R78, U11). Safe: no such cartridge
  exists, so the host cannot make the call. -/
  | malformedCartridge
deriving DecidableEq, Repr

/-- The state of the block, with its parameters and inputs (log entries 1, 13, 14). -/
structure State where
  cpu : Cpu
  ppu : Ppu
  bus : Bus
  /-- The inserted cartridge, if any (R50, R55, R78): no step changes it but a host call that inserts one. -/
  cart : Option Cartridge
  /-- `ILLEGAL_CYCLES` and `GRAY_AND_MASK` (R8): no step changes them. -/
  params : Params
  /-- `CTRL_IN[0]` (R412). -/
  ctrlIn0 : Byte
  /-- `CTRL_IN[1]` (R412). -/
  ctrlIn1 : Byte
  /-- Host calls not yet made, oldest first; with none, the host's next call is a Bus tick. The model's own. -/
  calls : List HostCall
  /-- What the last call that returns something returned. The model's own. -/
  reply : HostReply
deriving DecidableEq, Repr

/-- An empty record of the active-sprite buffer (R360): bytes 0xFF, patterns 0. -/
def Sprite.empty : Sprite := { y := 0xFF, id := 0xFF, attr := 0xFF, x := 0xFF, patLo := 0, patHi := 0 }

/-- PPU values at power-on, the defaults of R58 (D12; log entry 4). -/
def Ppu.powerOn : Ppu :=
  { nt0 := [], nt1 := [], pal := [], oam := [], pat := []
    ctrl := 0, mask := 0
    status := { verticalBlank := false, spriteZeroHit := false, spriteOverflow := false }
    v := 0, t := 0, fineX := 0, w := false, dataBuffer := 0, oamAddr := 0
    bgNextId := 0, bgNextAttr := 0, bgNextLsb := 0, bgNextMsb := 0
    bgPatLo := 0, bgPatHi := 0, bgAttrLo := 0, bgAttrHi := 0
    spr := List.replicate 8 Sprite.empty, sprCount := 0, zeroPossible := false
    scanline := 0, cycle := 0, frameComplete := false, nmiRequest := false
    frame := [], freeCount := 0 }

/-- Bus values at power-on, the defaults of R58 (D12; log entry 4). -/
def Bus.powerOn : Bus :=
  { ram := [], clock := 0, dmaPage := 0, dmaAddr := 0, dmaData := 0, dmaTransfer := false, dmaDummy := true
    ctrlShift0 := 0, ctrlShift1 := 0 }

/-- The block right after construction, with no cartridge (R57, R58). -/
def State.powerOn : State :=
  { cpu := { a := 0, x := 0, y := 0, sp := 0, pc := 0, p := 0x20, cycles := 0 }
    ppu := Ppu.powerOn, bus := Bus.powerOn
    cart := none, params := Config.params, ctrlIn0 := 0, ctrlIn1 := 0, calls := [], reply := .none }

/-- The block right after Bus reset (R58, R481): constructed, a cartridge inserted, reset. The CPU's values and the clock are
the spec's; PC is the word at 0xFFFC of the zero-filled cartridge (log entry 2); the rest are power-on values
(log entry 4). That this is what the construction, insertion and reset calls give is stated in the obligations. -/
def State.reset : State :=
  { cpu := { a := 0, x := 0, y := 0, sp := 0xFD, pc := 0x0000, p := 0x20, cycles := 8 }
    ppu := Ppu.powerOn, bus := Bus.powerOn
    cart := some Config.blankCartridge, params := Config.params, ctrlIn0 := 0, ctrlIn1 := 0
    calls := [], reply := .none }

end Sys2Proof.Machine
end

