-- ==== Sys2Proof/Machine/Flags.lean ====
section
/-! DEFINITION. The status register's bits (R25) and every flag computation: `SetZN` (R171), the adder (R201), compare (R205
to R207), and the bytes of P that are pushed and pulled (R26, R261, R263, R278, R444). -/

namespace Sys2Proof.Machine

def flagC (p : Byte) : Bool := p.getLsbD 0
def flagZ (p : Byte) : Bool := p.getLsbD 1
def flagI (p : Byte) : Bool := p.getLsbD 2
def flagD (p : Byte) : Bool := p.getLsbD 3
def flagB (p : Byte) : Bool := p.getLsbD 4
def flagU (p : Byte) : Bool := p.getLsbD 5
def flagV (p : Byte) : Bool := p.getLsbD 6
def flagN (p : Byte) : Bool := p.getLsbD 7

/-- P with the bits of a mask set or cleared. -/
def withBits (mask : Byte) (b : Bool) (p : Byte) : Byte := if b then p ||| mask else p &&& ~~~mask

def withC (b : Bool) (p : Byte) : Byte := withBits 0x01 b p
def withZ (b : Bool) (p : Byte) : Byte := withBits 0x02 b p
def withI (b : Bool) (p : Byte) : Byte := withBits 0x04 b p
def withD (b : Bool) (p : Byte) : Byte := withBits 0x08 b p
def withV (b : Bool) (p : Byte) : Byte := withBits 0x40 b p
def withN (b : Bool) (p : Byte) : Byte := withBits 0x80 b p

/-- `SetZN(v)` (R171). -/
def withZN (v : Byte) (p : Byte) : Byte := withN (v.getLsbD 7) (withZ (decide (v = 0)) p)

/-- What the adder gives (R201). -/
structure Sum where
  result : Byte
  carry : Bool
  overflow : Bool
deriving DecidableEq, Repr

/-- `Add(a, m, c)` (R201): binary whatever D holds (R202). -/
def addBytes (a m : Byte) (c : Bool) : Sum :=
  let s := a.toNat + m.toNat + c.toNat
  let r := BitVec.ofNat 8 s
  { result := r
    carry := decide (255 < s)
    overflow := decide ((~~~(a ^^^ m)) &&& (a ^^^ r) &&& 0x80 ≠ 0) }

/-- P after ADC or SBC (R203, R204). -/
def withSum (u : Sum) (p : Byte) : Byte := withZN u.result (withV u.overflow (withC u.carry p))

/-- P after a compare of a register with an operand (R205 to R207). -/
def withCompare (r m : Byte) (p : Byte) : Byte := withZN (r - m) (withC (decide (m.toNat ≤ r.toNat)) p)

/-- P after BIT (R211): Z from the and, N and V from the operand. -/
def withBitTest (a m : Byte) (p : Byte) : Byte :=
  withV (m.getLsbD 6) (withN (m.getLsbD 7) (withZ (decide (a &&& m = 0)) p))

/-- The byte PHP pushes (R261): bits 4 and 5 set. -/
def pushedByPhp (p : Byte) : Byte := p ||| 0x30

/-- The byte an entry pushes (R444): bit 5 set, bit 4 as given. -/
def pushedByEntry (b : Bool) (p : Byte) : Byte := (p &&& 0xCF) ||| 0x20 ||| if b then 0x10 else 0

/-- P from a pulled byte (R263, R278): bit 4 becomes 0 and bit 5 becomes 1. -/
def pulledStatus (b : Byte) : Byte := (b &&& 0xCF) ||| 0x20

end Sys2Proof.Machine
end

