-- ==== Sys2Proof/Machine/Memory.lean ====
section
/-! DEFINITION. The one read and the one write of a memory, and a memory filled from a list of bytes. -/

namespace Sys2Proof

/-- The byte at an address; an address with no cell reads 0x00 (R58's default, log entry 5). -/
def Memory.read : Memory → Nat → Byte
  | [], _ => 0
  | c :: rest, k => if c.1 = k then c.2 else Memory.read rest k

/-- Put a cell before the first one with a higher address. -/
def Memory.insertCell (k : Nat) (b : Byte) : Memory → Memory
  | [] => [(k, b)]
  | c :: rest => if k < c.1 then (k, b) :: c :: rest else c :: Memory.insertCell k b rest

/-- Write a byte. The canonical form is kept: writing 0x00 leaves no cell at the address. -/
def Memory.write (m : Memory) (k : Nat) (b : Byte) : Memory :=
  let others := m.filter fun c => c.1 != k
  if b = 0 then others else Memory.insertCell k b others

/-- A memory that holds a list of bytes from an address up. -/
def Memory.ofBytes : Nat → List Byte → Memory
  | _, [] => []
  | k, b :: rest => if b = 0 then Memory.ofBytes (k + 1) rest else (k, b) :: Memory.ofBytes (k + 1) rest

end Sys2Proof
end

