-- ==== Sys2Proof/Machine/Cartridge.lean ====
section
/-! DEFINITION. The cartridge interface (R78) with the reference mapper (R79, R80), and the image a cartridge is built
from (R81). -/

namespace Sys2Proof

/-- Offset of a CPU address in the PRG image (R79): one bank is mirrored, two or more are seen as 32 KB. -/
def Cartridge.prgOffset (c : Cartridge) (a : Addr) : Nat :=
  (a &&& if c.prgBanks = 1 then 0x3FFF else 0x7FFF).toNat

/-- `cpu_read(a)`: claims addresses from 0x8000 up (R79). -/
def Cartridge.cpuRead (c : Cartridge) (a : Addr) : Option Byte :=
  if 0x8000 ≤ a.toNat then some (c.prg.read (c.prgOffset a)) else none

/-- `cpu_write(a, d)`: claims addresses from 0x8000 up and changes nothing (R79, C4). -/
def Cartridge.cpuWriteClaims (_ : Cartridge) (a : Addr) : Bool := decide (0x8000 ≤ a.toNat)

/-- `ppu_read(a)`: claims the pattern tables when the cartridge has CHR (R80). -/
def Cartridge.ppuRead (c : Cartridge) (a : Nat) : Option Byte :=
  if a ≤ 0x1FFF ∧ 1 ≤ c.chrBanks then some (c.chr.read a) else none

/-- `ppu_write(a, d)`: never claims (R80). -/
def Cartridge.ppuWriteClaims (_ : Cartridge) (_ : Nat) : Bool := false

/-- Why no cartridge can be built from an image (R81, U11). -/
inductive ImageError where
  | badMagic
  | unsupportedMapper (id : Nat)
  | tooShort
  | noPrgBank
deriving DecidableEq, Repr

/-- The mapper id of a header, from the two mapper/flag bytes (R81). -/
def imageMapperId (byte6 byte7 : Byte) : Nat := ((byte7 &&& 0xF0) ||| (byte6 >>> 4)).toNat

/-- Build a cartridge from an image: 16-byte header, 512-byte trainer if bit 2 of byte 6 is set, PRG, CHR (R81). Bytes after
the CHR data are ignored; an image that ends early or declares no PRG bank is refused (log entry 8). -/
def Cartridge.ofImage (image : List Byte) : Except ImageError Cartridge :=
  let header (k : Nat) : Byte := image.getD k 0
  let prgBanks := (header 4).toNat
  let chrBanks := (header 5).toNat
  let mapperId := imageMapperId (header 6) (header 7)
  let start := 16 + if (header 6).getLsbD 2 then 512 else 0
  if image.take 4 ≠ [0x4E, 0x45, 0x53, 0x1A] then .error .badMagic
  else if image.length < start + 16384 * prgBanks + 8192 * chrBanks ∨ image.length < 16 then .error .tooShort
  else if mapperId ≠ 0 then .error (.unsupportedMapper mapperId)
  else if prgBanks = 0 then .error .noPrgBank
  else .ok
    { prgBanks := prgBanks
      prg := Memory.ofBytes 0 ((image.drop start).take (16384 * prgBanks))
      chrBanks := chrBanks
      chr := Memory.ofBytes 0 ((image.drop (start + 16384 * prgBanks)).take (8192 * chrBanks))
      mirroring := if (header 6).getLsbD 0 then .vertical else .horizontal }

end Sys2Proof
end

