-- ==== Sys2Proof/Machine/Ppu.lean ====
section
/-! DEFINITION. The PPU's own memory map (R320 to R324), the fields of its scroll registers (R37), and the reads and writes of
its eight ports (R300 to R313). -/

namespace Sys2Proof.Machine

/-! ## Fields of `v` and `t` (R37) -/

def coarseX (v : BitVec 15) : BitVec 5 := v.extractLsb' 0 5
def coarseY (v : BitVec 15) : BitVec 5 := v.extractLsb' 5 5
def nametableX (v : BitVec 15) : Bool := v.getLsbD 10
def nametableY (v : BitVec 15) : Bool := v.getLsbD 11
def fineY (v : BitVec 15) : BitVec 3 := v.extractLsb' 12 3

def withCoarseX (v : BitVec 15) (f : BitVec 5) : BitVec 15 := (v &&& ~~~0x001F#15) ||| f.setWidth 15
def withCoarseY (v : BitVec 15) (f : BitVec 5) : BitVec 15 := (v &&& ~~~0x03E0#15) ||| (f.setWidth 15 <<< 5)
def withFineY (v : BitVec 15) (f : BitVec 3) : BitVec 15 := (v &&& ~~~0x7000#15) ||| (f.setWidth 15 <<< 12)
def toggleNametableX (v : BitVec 15) : BitVec 15 := v ^^^ 0x0400
def toggleNametableY (v : BitVec 15) : BitVec 15 := v ^^^ 0x0800

/-! ## The PPU address space -/

/-- Nametables mirror horizontally: from the cartridge; with none the spec gives no mode (R82, log entry 11). -/
def mirrorsHorizontally (cart : Option Cartridge) : Bool :=
  match cart with
  | some c => decide (c.mirroring = .horizontal)
  | none => Config.noCartridgeHorizontal

/-- The physical bank of a nametable address (R323): bit 11 of the address when HORIZONTAL, bit 10 when VERTICAL. -/
def nametableBank (cart : Option Cartridge) (a : BitVec 14) : Bool :=
  if mirrorsHorizontally cart then a.getLsbD 11 else a.getLsbD 10

/-- `PalIndex` (R324): entries 0x10, 0x14, 0x18, 0x1C are aliases of 0x00, 0x04, 0x08, 0x0C. -/
def palIndex (a : BitVec 14) : Nat :=
  let i := (a &&& 0x1F).toNat
  if i = 0x10 ∨ i = 0x14 ∨ i = 0x18 ∨ i = 0x1C then i - 0x10 else i

/-- The mask of a palette read (R320, R324). -/
def paletteMask (gray : BitVec 6) (p : Ppu) : Byte := if p.mask.getLsbD 0 then gray.setWidth 8 else 0x3F

/-- `PpuRead` (R320). -/
def ppuRead (cart : Option Cartridge) (gray : BitVec 6) (p : Ppu) (addr : Addr) : Byte :=
  let a : BitVec 14 := addr.setWidth 14
  match cart.bind fun c => c.ppuRead a.toNat with
  | some b => b
  | none =>
    if a.toNat ≤ 0x1FFF then p.pat.read a.toNat
    else if a.toNat ≤ 0x3EFF then
      (if nametableBank cart a then p.nt1 else p.nt0).read (a &&& 0x03FF).toNat
    else p.pal.read (palIndex a) &&& paletteMask gray p

/-- `PpuWrite` (R321). -/
def ppuWrite (cart : Option Cartridge) (p : Ppu) (addr : Addr) (d : Byte) : Ppu :=
  let a : BitVec 14 := addr.setWidth 14
  if cart.any fun c => c.ppuWriteClaims a.toNat then p
  else if a.toNat ≤ 0x1FFF then { p with pat := p.pat.write a.toNat d }
  else if a.toNat ≤ 0x3EFF then
    if nametableBank cart a then { p with nt1 := p.nt1.write (a &&& 0x03FF).toNat d }
    else { p with nt0 := p.nt0.write (a &&& 0x03FF).toNat d }
  else { p with pal := p.pal.write (palIndex a) d }

/-! ## The ports -/

/-- The status register as bits 7 to 5 of a byte (R36). -/
def statusByte (st : PpuStatus) : Byte :=
  (if st.verticalBlank then 0x80 else 0) ||| (if st.spriteZeroHit then 0x40 else 0) |||
    (if st.spriteOverflow then 0x20 else 0)

/-- The address the data port uses: `v & 0x3FFF` (R37, R308). -/
def dataAddress (p : Ppu) : Addr := p.v.setWidth 16 &&& 0x3FFF

/-- The auto-increment of the data port, modulo 2^15 (R308, R309, D31). -/
def advanceV (p : Ppu) : BitVec 15 := p.v + if p.ctrl.getLsbD 2 then 32 else 1

/-- Port 2 read (R304). -/
def readStatusPort (p : Ppu) : Byte × Ppu :=
  (statusByte p.status ||| (p.dataBuffer &&& 0x1F),
   { p with status := { p.status with verticalBlank := false }, w := false })

/-- Port 7 read (R308). -/
def readDataPort (cart : Option Cartridge) (gray : BitVec 6) (p : Ppu) : Byte × Ppu :=
  let fresh := ppuRead cart gray p (dataAddress p)
  (if 0x3F00 ≤ (dataAddress p).toNat then fresh else p.dataBuffer,
   { p with dataBuffer := fresh, v := advanceV p })

/-- `PpuPortRead` (R301): ports 2, 4 and 7 return state, the others 0x00 with no effect (R312). -/
def ppuPortRead (cart : Option Cartridge) (gray : BitVec 6) (p : Ppu) (port : BitVec 3) : Byte × Ppu :=
  if port = 2 then readStatusPort p
  else if port = 4 then (p.oam.read p.oamAddr.toNat, p)
  else if port = 7 then readDataPort cart gray p
  else (0, p)

/-- Port 0 write (R303). -/
def writeControl (p : Ppu) (d : Byte) : Ppu :=
  { p with ctrl := d, t := (p.t &&& ~~~0x0C00#15) ||| ((d &&& 0x03).setWidth 15 <<< 10) }

/-- Port 5 write (R310). -/
def writeScroll (p : Ppu) (d : Byte) : Ppu :=
  if p.w then { p with t := withCoarseY (withFineY p.t (d.extractLsb' 0 3)) (d.extractLsb' 3 5), w := false }
  else { p with fineX := d.extractLsb' 0 3, t := withCoarseX p.t (d.extractLsb' 3 5), w := true }

/-- Port 6 write (R311). -/
def writeAddress (p : Ppu) (d : Byte) : Ppu :=
  if p.w then
    let t := (p.t &&& ~~~0x00FF#15) ||| d.setWidth 15
    { p with t := t, v := t, w := false }
  else { p with t := (p.t &&& 0x00FF) ||| ((d &&& 0x3F).setWidth 15 <<< 8), w := true }

/-- Port 7 write (R309). -/
def writeDataPort (cart : Option Cartridge) (p : Ppu) (d : Byte) : Ppu :=
  { ppuWrite cart p (dataAddress p) d with v := advanceV p }

/-- `PpuPortWrite` (R302): every port but 2 has an effect. -/
def ppuPortWrite (cart : Option Cartridge) (p : Ppu) (port : BitVec 3) (d : Byte) : Ppu :=
  if port = 0 then writeControl p d
  else if port = 1 then { p with mask := d }
  else if port = 3 then { p with oamAddr := d }
  else if port = 4 then { p with oam := p.oam.write p.oamAddr.toNat d }
  else if port = 5 then writeScroll p d
  else if port = 6 then writeAddress p d
  else if port = 7 then writeDataPort cart p d
  else p

end Sys2Proof.Machine
end

