-- ==== Sys2Proof/Machine/Render.lean ====
section
/-! DEFINITION. The PPU tick and the rendering pipeline (48_ppu_render.md). Every step is a function of the PPU alone, its
cartridge and `GRAY_AND_MASK`. -/

namespace Sys2Proof.Machine

/-- Rendering enabled: `mask[3] = 1 or mask[4] = 1` (R35). -/
def renderingEnabled (p : Ppu) : Bool := p.mask.getLsbD 3 || p.mask.getLsbD 4

/-! ## Background pipeline -/

/-- R342. -/
def clearAtPreRender (p : Ppu) : Ppu :=
  { p with
    status := { verticalBlank := false, spriteZeroHit := false, spriteOverflow := false }
    spr := p.spr.map fun s => { s with patLo := 0, patHi := 0 } }

/-- R344: shifts left by one when the background is on. -/
def shiftBackground (p : Ppu) : Ppu :=
  if p.mask.getLsbD 3 then
    { p with bgPatLo := p.bgPatLo <<< 1, bgPatHi := p.bgPatHi <<< 1
             bgAttrLo := p.bgAttrLo <<< 1, bgAttrHi := p.bgAttrHi <<< 1 }
  else p

/-- One record of R345: the counter counts down to 0, then the patterns shift. -/
def shiftSprite (s : Sprite) : Sprite :=
  if 0 < s.x.toNat then { s with x := s.x - 1 } else { s with patLo := s.patLo <<< 1, patHi := s.patHi <<< 1 }

/-- R345, at cycle `cy`. -/
def shiftSprites (cy : Nat) (p : Ppu) : Ppu :=
  if p.mask.getLsbD 4 ∧ 1 ≤ cy ∧ cy ≤ 257 then
    { p with spr := (p.spr.take p.sprCount).map shiftSprite ++ p.spr.drop p.sprCount }
  else p

/-- A shifter with its low byte replaced (R346). -/
def loadLow (r : BitVec 16) (b : Byte) : BitVec 16 := (r &&& 0xFF00) ||| b.setWidth 16

/-- A palette bit spread over eight pixels (R346). -/
def spreadBit (b : Bool) : Byte := if b then 0xFF else 0x00

/-- R346. -/
def loadBackgroundShifters (p : Ppu) : Ppu :=
  { p with
    bgPatLo := loadLow p.bgPatLo p.bgNextLsb
    bgPatHi := loadLow p.bgPatHi p.bgNextMsb
    bgAttrLo := loadLow p.bgAttrLo (spreadBit (p.bgNextAttr.getLsbD 0))
    bgAttrHi := loadLow p.bgAttrHi (spreadBit (p.bgNextAttr.getLsbD 1)) }

/-- Address of the nametable fetch (R347). -/
def nametableAddress (p : Ppu) : Addr := 0x2000 ||| (p.v.setWidth 16 &&& 0x0FFF)

/-- R347. -/
def fetchNametable (cart : Option Cartridge) (gray : BitVec 6) (p : Ppu) : Ppu :=
  { p with bgNextId := ppuRead cart gray p (nametableAddress p) }

/-- Address of the attribute fetch (R348). -/
def attributeAddress (p : Ppu) : Addr :=
  0x23C0 ||| (p.v.setWidth 16 &&& 0x0C00) ||| (((coarseY p.v).setWidth 16 >>> 2) <<< 3) |||
    ((coarseX p.v).setWidth 16 >>> 2)

/-- R348: the two bits of the quadrant. -/
def fetchAttribute (cart : Option Cartridge) (gray : BitVec 6) (p : Ppu) : Ppu :=
  let a := ppuRead cart gray p (attributeAddress p)
  let a := if (coarseY p.v).getLsbD 1 then a >>> 4 else a
  let a := if (coarseX p.v).getLsbD 1 then a >>> 2 else a
  { p with bgNextAttr := a.extractLsb' 0 2 }

/-- Address of the pattern low fetch (R349). -/
def patternAddress (p : Ppu) : Addr :=
  (if p.ctrl.getLsbD 4 then 0x1000 else 0) + (p.bgNextId.setWidth 16 <<< 4) + (fineY p.v).setWidth 16

/-- R349. -/
def fetchPatternLow (cart : Option Cartridge) (gray : BitVec 6) (p : Ppu) : Ppu :=
  { p with bgNextLsb := ppuRead cart gray p (patternAddress p) }

/-- R350. -/
def fetchPatternHigh (cart : Option Cartridge) (gray : BitVec 6) (p : Ppu) : Ppu :=
  { p with bgNextMsb := ppuRead cart gray p (patternAddress p + 8) }

/-- R352. -/
def incrementScrollX (p : Ppu) : Ppu :=
  if renderingEnabled p then
    { p with v := if coarseX p.v = 31 then toggleNametableX (withCoarseX p.v 0)
                  else withCoarseX p.v (coarseX p.v + 1) }
  else p

/-- R353. -/
def incrementScrollY (p : Ppu) : Ppu :=
  if renderingEnabled p then
    { p with v :=
        if (fineY p.v).toNat < 7 then withFineY p.v (fineY p.v + 1)
        else
          let v := withFineY p.v 0
          if coarseY v = 29 then toggleNametableY (withCoarseY v 0)
          else if coarseY v = 31 then withCoarseY v 0
          else withCoarseY v (coarseY v + 1) }
  else p

/-- `TransferX` of R354. -/
def transferX (p : Ppu) : Ppu :=
  if renderingEnabled p then { p with v := (p.v &&& ~~~0x041F#15) ||| (p.t &&& 0x041F) } else p

/-- R355. -/
def transferY (p : Ppu) : Ppu :=
  if renderingEnabled p then { p with v := (p.v &&& ~~~0x7BE0#15) ||| (p.t &&& 0x7BE0) } else p

/-- R343, for k = (cy - 1) mod 8. -/
def fetchStep (cart : Option Cartridge) (gray : BitVec 6) (k : Nat) (p : Ppu) : Ppu :=
  if k = 0 then fetchNametable cart gray (loadBackgroundShifters p)
  else if k = 2 then fetchAttribute cart gray p
  else if k = 4 then fetchPatternLow cart gray p
  else if k = 6 then fetchPatternHigh cart gray p
  else if k = 7 then incrementScrollX p
  else p

/-! ## Sprite pipeline -/

/-- Sprite height (R360). -/
def spriteHeight (p : Ppu) : Int := if p.ctrl.getLsbD 5 then 16 else 8

/-- OAM entry `e` covers the line after `sl` (R360). -/
def spriteInRange (p : Ppu) (sl : Int) (e : Nat) : Bool :=
  let d := sl - (p.oam.read (4 * e)).toNat
  decide (0 ≤ d) && decide (d < spriteHeight p)

/-- The buffer record of OAM entry `e` (R360). -/
def oamSprite (p : Ppu) (e : Nat) : Sprite :=
  { y := p.oam.read (4 * e), id := p.oam.read (4 * e + 1), attr := p.oam.read (4 * e + 2)
    x := p.oam.read (4 * e + 3), patLo := 0, patHi := 0 }

/-- The OAM entries that qualify on line `sl`, ascending (R360). -/
def qualifying (p : Ppu) (sl : Int) : List Nat := (List.range 64).filter (spriteInRange p sl)

/-- R360. -/
def spriteEvaluation (sl : Int) (p : Ppu) : Ppu :=
  let q := qualifying p sl
  let n := min q.length 8
  { p with
    spr := (q.take 8).map (oamSprite p) ++ List.replicate (8 - n) Sprite.empty
    sprCount := n
    zeroPossible := decide (0 ∈ q)
    status := { p.status with spriteOverflow := p.status.spriteOverflow || decide (8 < q.length) } }

/-- Exchanges bit k with bit 7 - k (R364). -/
def bitReverse8 (b : Byte) : Byte := b.reverse

/-- The address of the low pattern byte of a buffered sprite on line `sl` (R362, R363); `none` where the rules give no row
(log entry 9). -/
def spriteAddress (p : Ppu) (sl : Int) (s : Sprite) : Option Addr :=
  let d := sl - s.y.toNat
  let flip := s.attr.getLsbD 7
  if p.ctrl.getLsbD 5 then
    if 0 ≤ d ∧ d ≤ 15 then
      let top := s.id &&& 0xFE
      let tile := if decide (d < 8) != flip then top else top + 1
      let row : Nat := if flip then 7 - d.toNat % 8 else d.toNat % 8
      some ((if s.id.getLsbD 0 then 0x1000 else 0) ||| (tile.setWidth 16 <<< 4) ||| BitVec.ofNat 16 row)
    else none
  else
    let base : Addr := (if p.ctrl.getLsbD 3 then 0x1000 else 0) ||| (s.id.setWidth 16 <<< 4)
    if flip then
      if 0 ≤ d ∧ d ≤ 7 then some (base ||| BitVec.ofNat 16 (7 - d.toNat)) else none
    else
      if 0 ≤ d then some (base ||| BitVec.ofNat 16 d.toNat) else none

/-- The low and high pattern bytes of one sprite (R364); `n` numbers the free bytes used where there is no address. -/
def spriteBytes (cart : Option Cartridge) (gray : BitVec 6) (p : Ppu) (sl : Int) (n : Nat) (s : Sprite) : Byte × Byte :=
  match spriteAddress p sl s with
  | some a => (ppuRead cart gray p a, ppuRead cart gray p (a + 8))
  | none => (Config.freeByte n, Config.freeByte (n + 1))

/-- The pattern load of one sprite, reversed for horizontal flip (R364). -/
def loadSprite (cart : Option Cartridge) (gray : BitVec 6) (p : Ppu) (sl : Int) (n : Nat) (s : Sprite) : Sprite :=
  let b := spriteBytes cart gray p sl n s
  if s.attr.getLsbD 6 then { s with patLo := bitReverse8 b.1, patHi := bitReverse8 b.2 }
  else { s with patLo := b.1, patHi := b.2 }

/-- The pattern loads of a list of sprites, the free bytes of each numbered after those of the one before. -/
def loadSprites (cart : Option Cartridge) (gray : BitVec 6) (p : Ppu) (sl : Int) : Nat → List Sprite → List Sprite
  | _, [] => []
  | n, s :: rest => loadSprite cart gray p sl n s :: loadSprites cart gray p sl (n + 2) rest

/-- R364, on the records below `sprCount`. The free-value counter advances only when a free byte was used. -/
def spriteFetch (cart : Option Cartridge) (gray : BitVec 6) (sl : Int) (p : Ppu) : Ppu :=
  let active := p.spr.take p.sprCount
  { p with
    spr := loadSprites cart gray p sl p.freeCount active ++ p.spr.drop p.sprCount
    freeCount := if active.any fun s => (spriteAddress p sl s).isNone then p.freeCount + 16 else p.freeCount }

/-! ## Pixel composition -/

/-- A pixel candidate (R365). -/
structure Pixel where
  px : BitVec 2
  pal : BitVec 3
  /-- Sprite in front of the background. -/
  front : Bool
  /-- The pixel is of buffer record 0. -/
  zero : Bool
deriving DecidableEq, Repr

/-- Two bits as a number, the high one first. -/
def twoBits (hi lo : Bool) : BitVec 2 := BitVec.ofBool hi ++ BitVec.ofBool lo

/-- The background candidate (R365): bit 15 - fine_x of the shifters, transparent when the background is off. -/
def backgroundPixel (p : Ppu) : Pixel :=
  if p.mask.getLsbD 3 then
    let k := 15 - p.fineX.toNat
    { px := twoBits (p.bgPatHi.getLsbD k) (p.bgPatLo.getLsbD k)
      pal := (twoBits (p.bgAttrHi.getLsbD k) (p.bgAttrLo.getLsbD k)).setWidth 3
      front := false, zero := false }
  else { px := 0, pal := 0, front := false, zero := false }

/-- The first sprite of the list whose counter is 0 and whose pixel is opaque (R365); `i` is the index of the list's head. -/
def firstOpaque : Nat → List Sprite → Pixel
  | _, [] => { px := 0, pal := 0, front := false, zero := false }
  | i, s :: rest =>
    let px := twoBits (s.patHi.getLsbD 7) (s.patLo.getLsbD 7)
    if s.x = 0 ∧ px ≠ 0 then
      { px := px, pal := (s.attr.extractLsb' 0 2).setWidth 3 + 4, front := !s.attr.getLsbD 5, zero := decide (i = 0) }
    else firstOpaque (i + 1) rest

/-- The sprite candidate (R365): transparent when sprites are off. -/
def spritePixel (p : Ppu) : Pixel :=
  if p.mask.getLsbD 4 then firstOpaque 0 (p.spr.take p.sprCount)
  else { px := 0, pal := 0, front := false, zero := false }

/-- The pixel that is drawn (R367). -/
def resolvePixel (bg fg : Pixel) : Pixel :=
  if bg.px = 0 then if fg.px = 0 then { px := 0, pal := 0, front := false, zero := false } else fg
  else if fg.px = 0 then bg
  else if fg.front then fg else bg

/-- The sprite-zero hit registers at cycle `cy` (R366). -/
def spriteZeroHits (p : Ppu) (bg fg : Pixel) (cy : Nat) : Bool :=
  decide (bg.px ≠ 0) && decide (fg.px ≠ 0) && p.zeroPossible && fg.zero && p.mask.getLsbD 3 && p.mask.getLsbD 4 &&
    decide ((if !p.mask.getLsbD 1 && !p.mask.getLsbD 2 then 9 else 1) ≤ cy ∧ cy ≤ 256)

/-- Key of a picture element in `frame` (R49). -/
def frameKey (row col : Nat) : Nat := 256 * row + col

/-- The palette address of a pixel (R368). -/
def pixelAddress (q : Pixel) : Addr := 0x3F00 + 4 * q.pal.setWidth 16 + q.px.setWidth 16

/-- R365 to R368, on a visible line `row` at cycle `cy`. -/
def composePixel (cart : Option Cartridge) (gray : BitVec 6) (row cy : Nat) (p : Ppu) : Ppu :=
  let bg := backgroundPixel p
  let fg := spritePixel p
  { p with
    status := { p.status with spriteZeroHit := p.status.spriteZeroHit || spriteZeroHits p bg fg cy }
    frame := p.frame.write (frameKey row (cy - 1)) (ppuRead cart gray p (pixelAddress (resolvePixel bg fg))) }

/-! ## Vertical blank, counters, the tick -/

/-- R370. -/
def startVerticalBlank (p : Ppu) : Ppu :=
  { p with status := { p.status with verticalBlank := true }, nmiRequest := p.nmiRequest || p.ctrl.getLsbD 7 }

/-- R371. -/
def advanceCounters (p : Ppu) : Ppu :=
  if p.cycle + 1 = 341 then
    if p.scanline + 1 = 261 then { p with cycle := 0, scanline := -1, frameComplete := true }
    else { p with cycle := 0, scanline := p.scanline + 1 }
  else { p with cycle := p.cycle + 1 }

/-- A step of R340 that runs only when its condition holds. -/
abbrev onlyIf (c : Prop) [Decidable c] (f : Ppu → Ppu) (p : Ppu) : Ppu := if c then f p else p

/-- Steps 1a to 1g of R340, on lines -1 to 239. -/
def renderSteps (cart : Option Cartridge) (gray : BitVec 6) (sl : Int) (cy : Nat) (p : Ppu) : Ppu :=
  let p := onlyIf (sl = -1 ∧ cy = 1) clearAtPreRender p
  let p := onlyIf ((2 ≤ cy ∧ cy ≤ 258) ∨ (321 ≤ cy ∧ cy ≤ 337))
    (fun p => fetchStep cart gray ((cy - 1) % 8) (shiftSprites cy (shiftBackground p))) p
  let p := onlyIf (cy = 256) incrementScrollY p
  let p := onlyIf (cy = 257) (fun p => transferX (loadBackgroundShifters p)) p
  let p := onlyIf (sl = -1 ∧ 280 ≤ cy ∧ cy ≤ 304) transferY p
  let p := onlyIf (cy = 257 ∧ 0 ≤ sl) (spriteEvaluation sl) p
  onlyIf (cy = 340 ∧ 0 ≤ sl) (spriteFetch cart gray sl) p

/-- `PpuTick` (R340), on the PPU alone. -/
def ppuTickOf (cart : Option Cartridge) (gray : BitVec 6) (p : Ppu) : Ppu :=
  let sl := p.scanline
  let cy := p.cycle
  let p := onlyIf (-1 ≤ sl ∧ sl ≤ 239) (renderSteps cart gray sl cy) p
  let p := onlyIf (sl = 241 ∧ cy = 1) startVerticalBlank p
  let p := onlyIf (0 ≤ sl ∧ sl ≤ 239 ∧ 1 ≤ cy ∧ cy ≤ 256) (composePixel cart gray sl.toNat cy) p
  advanceCounters p

end Sys2Proof.Machine
end

