-- ==== Sys2Proof/Machine/Ops.lean ====
section
/-! DEFINITION. The named operations over registers and memory: register writes, the CPU bus (R71, R72), the stack (R171), the
entry of an exception and the return from one (R443 to R447, R278), the DMA micro-step (R405), the PPU tick as a step of the
block, and the end of an instruction (R152). -/

namespace Sys2Proof.Machine

/-- The outcome of a step of this machine. -/
abbrev Result := Host.Outcome State Fault Refusal

/-! ## Registers -/

def State.setA (s : State) (b : Byte) : State := { s with cpu := { s.cpu with a := b } }
def State.setX (s : State) (b : Byte) : State := { s with cpu := { s.cpu with x := b } }
def State.setY (s : State) (b : Byte) : State := { s with cpu := { s.cpu with y := b } }
def State.setSp (s : State) (b : Byte) : State := { s with cpu := { s.cpu with sp := b } }
def State.setPc (s : State) (a : Addr) : State := { s with cpu := { s.cpu with pc := a } }
def State.setP (s : State) (b : Byte) : State := { s with cpu := { s.cpu with p := b } }
def State.setCycles (s : State) (n : Nat) : State := { s with cpu := { s.cpu with cycles := n } }
def State.setPpu (s : State) (p : Ppu) : State := { s with ppu := p }
def State.setBus (s : State) (b : Bus) : State := { s with bus := b }

/-- `SetZN(v)` on the state (R171). -/
def State.setZN (s : State) (v : Byte) : State := s.setP (withZN v s.cpu.p)

/-! ## The CPU bus -/

/-- What a controller read returns: bit 7 of the shift register as 0x00 or 0x01 (R411). -/
def controllerBit (b : Byte) : Byte := if b.getLsbD 7 then 1 else 0

/-- `CpuRead(a)` (R71): the byte, and the state with the read's side effects (R89). -/
def cpuRead (s : State) (a : Addr) : Byte × State :=
  match s.cart.bind fun c => c.cpuRead a with
  | some b => (b, s)
  | none =>
    if a.toNat ≤ 0x1FFF then (s.bus.ram.read (a &&& 0x07FF).toNat, s)
    else if a.toNat ≤ 0x3FFF then
      let r := ppuPortRead s.cart s.params.grayMask s.ppu (a.extractLsb' 0 3)
      (r.1, s.setPpu r.2)
    else if a = 0x4016 then
      (controllerBit s.bus.ctrlShift0, s.setBus { s.bus with ctrlShift0 := s.bus.ctrlShift0 <<< 1 })
    else if a = 0x4017 then
      (controllerBit s.bus.ctrlShift1, s.setBus { s.bus with ctrlShift1 := s.bus.ctrlShift1 <<< 1 })
    else (0, s)

/-- `CpuWrite(a, d)` (R72). -/
def cpuWrite (s : State) (a : Addr) (d : Byte) : State :=
  if s.cart.any fun c => c.cpuWriteClaims a then s
  else if a.toNat ≤ 0x1FFF then s.setBus { s.bus with ram := s.bus.ram.write (a &&& 0x07FF).toNat d }
  else if a.toNat ≤ 0x3FFF then s.setPpu (ppuPortWrite s.cart s.ppu (a.extractLsb' 0 3) d)
  else if a = 0x4014 then s.setBus { s.bus with dmaPage := d, dmaAddr := 0, dmaTransfer := true }
  else if a = 0x4016 then s.setBus { s.bus with ctrlShift0 := s.ctrlIn0 }
  else if a = 0x4017 then s.setBus { s.bus with ctrlShift1 := s.ctrlIn1 }
  else s

/-- `MemRead(a, 2)` (R12): low byte first, the address wrapping modulo 65536. -/
def memRead2 (s : State) (a : Addr) : Addr × State :=
  let lo := cpuRead s a
  let hi := cpuRead lo.2 (a + 1)
  (word hi.1 lo.1, hi.2)

/-! ## The stack -/

/-- The address 0x0100 + SP (R23). -/
def stackAddress (sp : Byte) : Addr := word 0x01 sp

/-- `Push(v)` (R171). -/
def push (v : Byte) (s : State) : State := (cpuWrite s (stackAddress s.cpu.sp) v).setSp (s.cpu.sp - 1)

/-- `Pull()` (R171). -/
def pull (s : State) : Byte × State := cpuRead (s.setSp (s.cpu.sp + 1)) (stackAddress (s.cpu.sp + 1))

/-! ## Exceptions -/

/-- `Enter(vector, b)` (R444), the one entry of NMI, IRQ and BRK: PC and P are pushed, I is set, PC comes from the vector. -/
def enter (vector : Addr) (b : Bool) (s : State) : State :=
  let s := push (hiByte s.cpu.pc) s
  let s := push (loByte s.cpu.pc) s
  let s := push (pushedByEntry b s.cpu.p) s
  let r := memRead2 (s.setP (withI true s.cpu.p)) vector
  r.2.setPc r.1

/-- The return from an exception (R278, R450): P is pulled, then PC, low byte first, with no adjustment. -/
def returnFromInterrupt (s : State) : State :=
  let st := pull s
  let lo := pull (st.2.setP (pulledStatus st.1))
  let hi := pull lo.2
  hi.2.setPc (word hi.1 lo.1)

/-- `raise Interrupt(NMI)` (R445). -/
def raiseNmi (s : State) : State := (enter 0xFFFA false s).setCycles 8

/-- `raise Interrupt(IRQ)` (R446): dropped while I is 1. -/
def raiseIrq (s : State) : State := if flagI s.cpu.p then s else (enter 0xFFFE false s).setCycles 7

/-- CPU reset (R443). -/
def cpuReset (s : State) : State :=
  let r := memRead2 s 0xFFFC
  { r.2 with cpu := { a := 0, x := 0, y := 0, sp := 0xFD, pc := r.1, p := 0x20, cycles := 8 } }

/-- Bus reset (R415): the CPU reset, and the clock to 0. -/
def busReset (s : State) : State :=
  let s := cpuReset s
  s.setBus { s.bus with clock := 0 }

/-! ## The other agents of a Bus tick -/

/-- `PpuTick` (R340) as a step of the block. -/
def ppuTick (s : State) : State := s.setPpu (ppuTickOf s.cart s.params.grayMask s.ppu)

/-- `DmaStep` (R405). -/
def dmaStep (s : State) : State :=
  if s.bus.dmaDummy then
    if s.bus.clock % 2 = 1 then s.setBus { s.bus with dmaDummy := false } else s
  else if s.bus.clock % 2 = 0 then
    let r := cpuRead s (word s.bus.dmaPage s.bus.dmaAddr)
    r.2.setBus { r.2.bus with dmaData := r.1 }
  else
    let s := s.setPpu { s.ppu with oam := s.ppu.oam.write s.bus.dmaAddr.toNat s.bus.dmaData }
    let next := s.bus.dmaAddr + 1
    if next = 0 then s.setBus { s.bus with dmaAddr := 0, dmaTransfer := false, dmaDummy := true }
    else s.setBus { s.bus with dmaAddr := next }

/-- Steps 3 and 4 of R400: the NMI request is delivered, the clock advances. -/
def endBusTick (s : State) : State :=
  let s := if s.ppu.nmiRequest then raiseNmi (s.setPpu { s.ppu with nmiRequest := false }) else s
  s.setBus { s.bus with clock := s.bus.clock + 1 }

/-! ## The end of an instruction -/

/-- `cycles` gets the instruction's count (R150, R152). -/
def finish (count : Nat) (s : State) : Result := .next (s.setCycles count)

/-- `ILLEGAL_CYCLES[opcode]` (R125, R282), 1 to 8. -/
def illegalCycles (params : Params) (opcode : Byte) : Nat := (params.illegalCycles.getD opcode.toNat 0).val + 1

/-- Go on with the next state; a fault or a refusal stays. -/
def andThen (r : Result) (f : State → Result) : Result :=
  match r with
  | .next s => f s
  | .fault e => .fault e
  | .refused e => .refused e

end Sys2Proof.Machine
end

