-- ==== Sys2Proof/Machine/Operands.lean ====
section
/-! DEFINITION. The addressing modes (R154 to R166) and the shapes in which an instruction uses its operand: read it (R167),
store to it (R183), read and write it back (R168). PC is already past the instruction's bytes (R123). -/

namespace Sys2Proof.Machine

/-- What `Resolve(mode)` gives (40_cpu_tick_addressing.md, part 2), and the state after the reads it made. -/
structure Resolved where
  ea : Addr
  crossed : Bool
  st : State
deriving DecidableEq, Repr

/-- ABX and ABY (R162, R163): `crossed` when the high byte of the sum is not the base's. -/
def resolveIndexed (base : Addr) (index : Byte) (s : State) : Resolved :=
  let ea := base + index.setWidth 16
  { ea := ea, crossed := decide (hiByte ea ≠ hiByte base), st := s }

/-- IND (R164): the second pointer byte is read from the same page. -/
def resolveInd (ptr : Addr) (s : State) : Resolved :=
  let lo := cpuRead s ptr
  let hi := cpuRead lo.2 (word (hiByte ptr) (loByte ptr + 1))
  { ea := word hi.1 lo.1, crossed := false, st := hi.2 }

/-- The pointer at zero-page address `t`, whose high byte wraps inside page 0 (R165, R166). -/
def zeroPagePointer (t : Byte) (s : State) : Addr × State :=
  let lo := cpuRead s (word 0 t)
  let hi := cpuRead lo.2 (word 0 (t + 1))
  (word hi.1 lo.1, hi.2)

/-- IZX (R165). -/
def resolveIzx (zp : Byte) (s : State) : Resolved :=
  let r := zeroPagePointer (zp + s.cpu.x) s
  { ea := r.1, crossed := false, st := r.2 }

/-- IZY (R166). -/
def resolveIzy (zp : Byte) (s : State) : Resolved :=
  let r := zeroPagePointer zp s
  resolveIndexed r.1 s.cpu.y r.2

/-- `Resolve(mode)` for the modes with an effective address in memory; the others have none, and 0 stands for it
(R154, R155, R156, R160): no instruction uses it. -/
def resolve (o : Operand) (s : State) : Resolved :=
  match o with
  | .zp0 zp => { ea := word 0 zp, crossed := false, st := s }
  | .zpx zp => { ea := word 0 (zp + s.cpu.x), crossed := false, st := s }
  | .zpy zp => { ea := word 0 (zp + s.cpu.y), crossed := false, st := s }
  | .abs addr => { ea := addr, crossed := false, st := s }
  | .abx addr => resolveIndexed addr s.cpu.x s
  | .aby addr => resolveIndexed addr s.cpu.y s
  | .ind ptr => resolveInd ptr s
  | .izx zp => resolveIzx zp s
  | .izy zp => resolveIzy zp s
  | .imp | .acc | .imm _ | .rel _ => { ea := 0, crossed := false, st := s }

/-- What `Operand()` gives (R167), whether the mode crossed a page, and the state after the reads. -/
structure Fetched where
  value : Byte
  crossed : Bool
  st : State
deriving DecidableEq, Repr

/-- `Operand()` (R167): the immediate byte, the accumulator, or one read of the effective address. -/
def fetchOperand (o : Operand) (s : State) : Fetched :=
  match o with
  | .imm v => { value := v, crossed := false, st := s }
  | .acc => { value := s.cpu.a, crossed := false, st := s }
  | o =>
    let r := resolve o s
    let m := cpuRead r.st r.ea
    { value := m.1, crossed := r.crossed, st := m.2 }

/-- An instruction that reads its operand: `f` takes the value. The page penalty of R152 is added when the mode crossed; the
read instructions of R126 are all the instructions of this shape that have a crossing mode. -/
def readInstr (f : Byte → State → State) (base : Nat) (o : Operand) (s : State) : Result :=
  let m := fetchOperand o s
  finish (base + m.crossed.toNat) (f m.value m.st)

/-- An instruction that stores a byte at its effective address (R183 to R185): the target is not read, no penalty. -/
def storeInstr (v : Byte) (base : Nat) (o : Operand) (s : State) : Result :=
  let r := resolve o s
  finish base (cpuWrite r.st r.ea v)

/-- A read-modify-write instruction (R168, R234): one read, one write at the same effective address, no penalty. `f` gives the
result from the operand and P, and `flags` the new P. In ACC mode the operand and the result are A. -/
def modifyInstr (f : Byte → Byte → Byte) (flags : Byte → Byte → Byte) (base : Nat) (o : Operand) (s : State) : Result :=
  match o with
  | .acc => finish base ((s.setP (flags s.cpu.a s.cpu.p)).setA (f s.cpu.a s.cpu.p))
  | o =>
    let r := resolve o s
    let m := cpuRead r.st r.ea
    let p := m.2.cpu.p
    finish base (cpuWrite (m.2.setP (flags m.1 p)) r.ea (f m.1 p))

/-- A conditional branch (R241): the displacement is sign-extended, PC is already past the branch; 1 extra cycle when taken, 1
more when the target is in another page than the next instruction. -/
def branchInstr (taken : Bool) (disp : Byte) (s : State) : Result :=
  let target := s.cpu.pc + disp.signExtend 16
  if taken then
    finish (2 + 1 + (decide (hiByte target ≠ hiByte s.cpu.pc)).toNat) (s.setPc target)
  else finish 2 s

end Sys2Proof.Machine
end

