-- ==== Sys2Proof/Machine/Arith.lean ====
section
/-! DEFINITION. Meanings of the arithmetic, compare, logic, increment and decrement instructions (R203 to R217). -/

namespace Sys2Proof.Machine

/-- A and P from the adder. -/
def State.setSum (s : State) (u : Sum) : State := (s.setP (withSum u s.cpu.p)).setA u.result

/-- ADC's operation (R203). -/
def opAdc (m : Byte) (s : State) : State := s.setSum (addBytes s.cpu.a m (flagC s.cpu.p))

/-- SBC's operation (R204): the adder with the complemented operand. -/
def opSbc (m : Byte) (s : State) : State := s.setSum (addBytes s.cpu.a (m ^^^ 0xFF) (flagC s.cpu.p))

/-- CMP's operation (R205). -/
def opCmp (m : Byte) (s : State) : State := s.setP (withCompare s.cpu.a m s.cpu.p)

/-- CPX's operation (R206). -/
def opCpx (m : Byte) (s : State) : State := s.setP (withCompare s.cpu.x m s.cpu.p)

/-- CPY's operation (R207). -/
def opCpy (m : Byte) (s : State) : State := s.setP (withCompare s.cpu.y m s.cpu.p)

/-- AND's operation (R208). -/
def opAnd (m : Byte) (s : State) : State := (s.setA (s.cpu.a &&& m)).setZN (s.cpu.a &&& m)

/-- ORA's operation (R209). -/
def opOra (m : Byte) (s : State) : State := (s.setA (s.cpu.a ||| m)).setZN (s.cpu.a ||| m)

/-- EOR's operation (R210). -/
def opEor (m : Byte) (s : State) : State := (s.setA (s.cpu.a ^^^ m)).setZN (s.cpu.a ^^^ m)

/-- BIT's operation (R211). -/
def opBit (m : Byte) (s : State) : State := s.setP (withBitTest s.cpu.a m s.cpu.p)

/-- INC's result and flags (R212). -/
def incResult (m _p : Byte) : Byte := m + 1
def incFlags (m p : Byte) : Byte := withZN (m + 1) p

/-- DEC's result and flags (R213). -/
def decResult (m _p : Byte) : Byte := m - 1
def decFlags (m p : Byte) : Byte := withZN (m - 1) p

/-! ADC (R203) -/

def execAdcImm (v : Byte) (s : State) : Result := readInstr opAdc 2 (.imm v) s
def execAdcZp0 (zp : Byte) (s : State) : Result := readInstr opAdc 3 (.zp0 zp) s
def execAdcZpx (zp : Byte) (s : State) : Result := readInstr opAdc 4 (.zpx zp) s
def execAdcAbs (addr : Addr) (s : State) : Result := readInstr opAdc 4 (.abs addr) s
def execAdcAbx (addr : Addr) (s : State) : Result := readInstr opAdc 4 (.abx addr) s
def execAdcAby (addr : Addr) (s : State) : Result := readInstr opAdc 4 (.aby addr) s
def execAdcIzx (zp : Byte) (s : State) : Result := readInstr opAdc 6 (.izx zp) s
def execAdcIzy (zp : Byte) (s : State) : Result := readInstr opAdc 5 (.izy zp) s

/-! SBC (R204) -/

def execSbcImm (v : Byte) (s : State) : Result := readInstr opSbc 2 (.imm v) s
def execSbcZp0 (zp : Byte) (s : State) : Result := readInstr opSbc 3 (.zp0 zp) s
def execSbcZpx (zp : Byte) (s : State) : Result := readInstr opSbc 4 (.zpx zp) s
def execSbcAbs (addr : Addr) (s : State) : Result := readInstr opSbc 4 (.abs addr) s
def execSbcAbx (addr : Addr) (s : State) : Result := readInstr opSbc 4 (.abx addr) s
def execSbcAby (addr : Addr) (s : State) : Result := readInstr opSbc 4 (.aby addr) s
def execSbcIzx (zp : Byte) (s : State) : Result := readInstr opSbc 6 (.izx zp) s
def execSbcIzy (zp : Byte) (s : State) : Result := readInstr opSbc 5 (.izy zp) s

/-! CMP (R205) -/

def execCmpImm (v : Byte) (s : State) : Result := readInstr opCmp 2 (.imm v) s
def execCmpZp0 (zp : Byte) (s : State) : Result := readInstr opCmp 3 (.zp0 zp) s
def execCmpZpx (zp : Byte) (s : State) : Result := readInstr opCmp 4 (.zpx zp) s
def execCmpAbs (addr : Addr) (s : State) : Result := readInstr opCmp 4 (.abs addr) s
def execCmpAbx (addr : Addr) (s : State) : Result := readInstr opCmp 4 (.abx addr) s
def execCmpAby (addr : Addr) (s : State) : Result := readInstr opCmp 4 (.aby addr) s
def execCmpIzx (zp : Byte) (s : State) : Result := readInstr opCmp 6 (.izx zp) s
def execCmpIzy (zp : Byte) (s : State) : Result := readInstr opCmp 5 (.izy zp) s

/-! CPX (R206) -/

def execCpxImm (v : Byte) (s : State) : Result := readInstr opCpx 2 (.imm v) s
def execCpxZp0 (zp : Byte) (s : State) : Result := readInstr opCpx 3 (.zp0 zp) s
def execCpxAbs (addr : Addr) (s : State) : Result := readInstr opCpx 4 (.abs addr) s

/-! CPY (R207) -/

def execCpyImm (v : Byte) (s : State) : Result := readInstr opCpy 2 (.imm v) s
def execCpyZp0 (zp : Byte) (s : State) : Result := readInstr opCpy 3 (.zp0 zp) s
def execCpyAbs (addr : Addr) (s : State) : Result := readInstr opCpy 4 (.abs addr) s

/-! AND (R208) -/

def execAndImm (v : Byte) (s : State) : Result := readInstr opAnd 2 (.imm v) s
def execAndZp0 (zp : Byte) (s : State) : Result := readInstr opAnd 3 (.zp0 zp) s
def execAndZpx (zp : Byte) (s : State) : Result := readInstr opAnd 4 (.zpx zp) s
def execAndAbs (addr : Addr) (s : State) : Result := readInstr opAnd 4 (.abs addr) s
def execAndAbx (addr : Addr) (s : State) : Result := readInstr opAnd 4 (.abx addr) s
def execAndAby (addr : Addr) (s : State) : Result := readInstr opAnd 4 (.aby addr) s
def execAndIzx (zp : Byte) (s : State) : Result := readInstr opAnd 6 (.izx zp) s
def execAndIzy (zp : Byte) (s : State) : Result := readInstr opAnd 5 (.izy zp) s

/-! ORA (R209) -/

def execOraImm (v : Byte) (s : State) : Result := readInstr opOra 2 (.imm v) s
def execOraZp0 (zp : Byte) (s : State) : Result := readInstr opOra 3 (.zp0 zp) s
def execOraZpx (zp : Byte) (s : State) : Result := readInstr opOra 4 (.zpx zp) s
def execOraAbs (addr : Addr) (s : State) : Result := readInstr opOra 4 (.abs addr) s
def execOraAbx (addr : Addr) (s : State) : Result := readInstr opOra 4 (.abx addr) s
def execOraAby (addr : Addr) (s : State) : Result := readInstr opOra 4 (.aby addr) s
def execOraIzx (zp : Byte) (s : State) : Result := readInstr opOra 6 (.izx zp) s
def execOraIzy (zp : Byte) (s : State) : Result := readInstr opOra 5 (.izy zp) s

/-! EOR (R210) -/

def execEorImm (v : Byte) (s : State) : Result := readInstr opEor 2 (.imm v) s
def execEorZp0 (zp : Byte) (s : State) : Result := readInstr opEor 3 (.zp0 zp) s
def execEorZpx (zp : Byte) (s : State) : Result := readInstr opEor 4 (.zpx zp) s
def execEorAbs (addr : Addr) (s : State) : Result := readInstr opEor 4 (.abs addr) s
def execEorAbx (addr : Addr) (s : State) : Result := readInstr opEor 4 (.abx addr) s
def execEorAby (addr : Addr) (s : State) : Result := readInstr opEor 4 (.aby addr) s
def execEorIzx (zp : Byte) (s : State) : Result := readInstr opEor 6 (.izx zp) s
def execEorIzy (zp : Byte) (s : State) : Result := readInstr opEor 5 (.izy zp) s

/-! BIT (R211) -/

def execBitZp0 (zp : Byte) (s : State) : Result := readInstr opBit 3 (.zp0 zp) s
def execBitAbs (addr : Addr) (s : State) : Result := readInstr opBit 4 (.abs addr) s

/-! INC (R212) -/

def execIncZp0 (zp : Byte) (s : State) : Result := modifyInstr incResult incFlags 5 (.zp0 zp) s
def execIncZpx (zp : Byte) (s : State) : Result := modifyInstr incResult incFlags 6 (.zpx zp) s
def execIncAbs (addr : Addr) (s : State) : Result := modifyInstr incResult incFlags 6 (.abs addr) s
def execIncAbx (addr : Addr) (s : State) : Result := modifyInstr incResult incFlags 7 (.abx addr) s

/-! DEC (R213) -/

def execDecZp0 (zp : Byte) (s : State) : Result := modifyInstr decResult decFlags 5 (.zp0 zp) s
def execDecZpx (zp : Byte) (s : State) : Result := modifyInstr decResult decFlags 6 (.zpx zp) s
def execDecAbs (addr : Addr) (s : State) : Result := modifyInstr decResult decFlags 6 (.abs addr) s
def execDecAbx (addr : Addr) (s : State) : Result := modifyInstr decResult decFlags 7 (.abx addr) s

/-! INX (R214) -/

def execInx (s : State) : Result := finish 2 ((s.setX (s.cpu.x + 1)).setZN (s.cpu.x + 1))

/-! INY (R215) -/

def execIny (s : State) : Result := finish 2 ((s.setY (s.cpu.y + 1)).setZN (s.cpu.y + 1))

/-! DEX (R216) -/

def execDex (s : State) : Result := finish 2 ((s.setX (s.cpu.x - 1)).setZN (s.cpu.x - 1))

/-! DEY (R217) -/

def execDey (s : State) : Result := finish 2 ((s.setY (s.cpu.y - 1)).setZN (s.cpu.y - 1))

end Sys2Proof.Machine
end

