-- ==== Sys2Proof/Machine/Branch.lean ====
section
/-! DEFINITION. Meanings of the branches, jumps, call and return (R240 to R252). -/

namespace Sys2Proof.Machine

/-- JMP (R252). -/
def jumpTo (base : Nat) (o : Operand) (s : State) : Result :=
  let r := resolve o s
  finish base (r.st.setPc r.ea)

/-- JSR (R250): the address of its last byte is pushed, high byte first. -/
def jumpToSubroutine (target : Addr) (s : State) : Result :=
  let ret := s.cpu.pc - 1
  finish 6 ((push (loByte ret) (push (hiByte ret) s)).setPc target)

/-- RTS (R251): low byte pulled first, then 1 added. -/
def returnFromSubroutine (s : State) : State :=
  let lo := pull s
  let hi := pull lo.2
  hi.2.setPc (word hi.1 lo.1 + 1)

/-! BCC (R242) -/

def execBcc (disp : Byte) (s : State) : Result := branchInstr (!flagC s.cpu.p) disp s

/-! BCS (R243) -/

def execBcs (disp : Byte) (s : State) : Result := branchInstr (flagC s.cpu.p) disp s

/-! BEQ (R244) -/

def execBeq (disp : Byte) (s : State) : Result := branchInstr (flagZ s.cpu.p) disp s

/-! BNE (R245) -/

def execBne (disp : Byte) (s : State) : Result := branchInstr (!flagZ s.cpu.p) disp s

/-! BMI (R246) -/

def execBmi (disp : Byte) (s : State) : Result := branchInstr (flagN s.cpu.p) disp s

/-! BPL (R247) -/

def execBpl (disp : Byte) (s : State) : Result := branchInstr (!flagN s.cpu.p) disp s

/-! BVC (R248) -/

def execBvc (disp : Byte) (s : State) : Result := branchInstr (!flagV s.cpu.p) disp s

/-! BVS (R249) -/

def execBvs (disp : Byte) (s : State) : Result := branchInstr (flagV s.cpu.p) disp s

/-! JMP (R252) -/

def execJmpAbs (addr : Addr) (s : State) : Result := jumpTo 3 (.abs addr) s
def execJmpInd (ptr : Addr) (s : State) : Result := jumpTo 5 (.ind ptr) s

/-! JSR (R250) -/

def execJsr (addr : Addr) (s : State) : Result := jumpToSubroutine addr s

/-! RTS (R251) -/

def execRts (s : State) : Result := finish 6 (returnFromSubroutine s)

end Sys2Proof.Machine
end

