-- ==== Sys2Proof/Machine/Illegal.lean ====
section
/-! DEFINITION. Meanings of the 105 illegal opcodes (R282): one-byte no-ops that only take `ILLEGAL_CYCLES` CPU ticks. -/

namespace Sys2Proof.Machine

/-- R282: no register but PC (already advanced), no flag, no memory byte changes. -/
def illegalInstr (opcode : Byte) (s : State) : Result := finish (illegalCycles s.params opcode) s

def execIll02 (s : State) : Result := illegalInstr 0x02 s
def execIll03 (s : State) : Result := illegalInstr 0x03 s
def execIll04 (s : State) : Result := illegalInstr 0x04 s
def execIll07 (s : State) : Result := illegalInstr 0x07 s
def execIll0B (s : State) : Result := illegalInstr 0x0B s
def execIll0C (s : State) : Result := illegalInstr 0x0C s
def execIll0F (s : State) : Result := illegalInstr 0x0F s
def execIll12 (s : State) : Result := illegalInstr 0x12 s
def execIll13 (s : State) : Result := illegalInstr 0x13 s
def execIll14 (s : State) : Result := illegalInstr 0x14 s
def execIll17 (s : State) : Result := illegalInstr 0x17 s
def execIll1A (s : State) : Result := illegalInstr 0x1A s
def execIll1B (s : State) : Result := illegalInstr 0x1B s
def execIll1C (s : State) : Result := illegalInstr 0x1C s
def execIll1F (s : State) : Result := illegalInstr 0x1F s
def execIll22 (s : State) : Result := illegalInstr 0x22 s
def execIll23 (s : State) : Result := illegalInstr 0x23 s
def execIll27 (s : State) : Result := illegalInstr 0x27 s
def execIll2B (s : State) : Result := illegalInstr 0x2B s
def execIll2F (s : State) : Result := illegalInstr 0x2F s
def execIll32 (s : State) : Result := illegalInstr 0x32 s
def execIll33 (s : State) : Result := illegalInstr 0x33 s
def execIll34 (s : State) : Result := illegalInstr 0x34 s
def execIll37 (s : State) : Result := illegalInstr 0x37 s
def execIll3A (s : State) : Result := illegalInstr 0x3A s
def execIll3B (s : State) : Result := illegalInstr 0x3B s
def execIll3C (s : State) : Result := illegalInstr 0x3C s
def execIll3F (s : State) : Result := illegalInstr 0x3F s
def execIll42 (s : State) : Result := illegalInstr 0x42 s
def execIll43 (s : State) : Result := illegalInstr 0x43 s
def execIll44 (s : State) : Result := illegalInstr 0x44 s
def execIll47 (s : State) : Result := illegalInstr 0x47 s
def execIll4B (s : State) : Result := illegalInstr 0x4B s
def execIll4F (s : State) : Result := illegalInstr 0x4F s
def execIll52 (s : State) : Result := illegalInstr 0x52 s
def execIll53 (s : State) : Result := illegalInstr 0x53 s
def execIll54 (s : State) : Result := illegalInstr 0x54 s
def execIll57 (s : State) : Result := illegalInstr 0x57 s
def execIll5A (s : State) : Result := illegalInstr 0x5A s
def execIll5B (s : State) : Result := illegalInstr 0x5B s
def execIll5C (s : State) : Result := illegalInstr 0x5C s
def execIll5F (s : State) : Result := illegalInstr 0x5F s
def execIll62 (s : State) : Result := illegalInstr 0x62 s
def execIll63 (s : State) : Result := illegalInstr 0x63 s
def execIll64 (s : State) : Result := illegalInstr 0x64 s
def execIll67 (s : State) : Result := illegalInstr 0x67 s
def execIll6B (s : State) : Result := illegalInstr 0x6B s
def execIll6F (s : State) : Result := illegalInstr 0x6F s
def execIll72 (s : State) : Result := illegalInstr 0x72 s
def execIll73 (s : State) : Result := illegalInstr 0x73 s
def execIll74 (s : State) : Result := illegalInstr 0x74 s
def execIll77 (s : State) : Result := illegalInstr 0x77 s
def execIll7A (s : State) : Result := illegalInstr 0x7A s
def execIll7B (s : State) : Result := illegalInstr 0x7B s
def execIll7C (s : State) : Result := illegalInstr 0x7C s
def execIll7F (s : State) : Result := illegalInstr 0x7F s
def execIll80 (s : State) : Result := illegalInstr 0x80 s
def execIll82 (s : State) : Result := illegalInstr 0x82 s
def execIll83 (s : State) : Result := illegalInstr 0x83 s
def execIll87 (s : State) : Result := illegalInstr 0x87 s
def execIll89 (s : State) : Result := illegalInstr 0x89 s
def execIll8B (s : State) : Result := illegalInstr 0x8B s
def execIll8F (s : State) : Result := illegalInstr 0x8F s
def execIll92 (s : State) : Result := illegalInstr 0x92 s
def execIll93 (s : State) : Result := illegalInstr 0x93 s
def execIll97 (s : State) : Result := illegalInstr 0x97 s
def execIll9B (s : State) : Result := illegalInstr 0x9B s
def execIll9C (s : State) : Result := illegalInstr 0x9C s
def execIll9E (s : State) : Result := illegalInstr 0x9E s
def execIll9F (s : State) : Result := illegalInstr 0x9F s
def execIllA3 (s : State) : Result := illegalInstr 0xA3 s
def execIllA7 (s : State) : Result := illegalInstr 0xA7 s
def execIllAB (s : State) : Result := illegalInstr 0xAB s
def execIllAF (s : State) : Result := illegalInstr 0xAF s
def execIllB2 (s : State) : Result := illegalInstr 0xB2 s
def execIllB3 (s : State) : Result := illegalInstr 0xB3 s
def execIllB7 (s : State) : Result := illegalInstr 0xB7 s
def execIllBB (s : State) : Result := illegalInstr 0xBB s
def execIllBF (s : State) : Result := illegalInstr 0xBF s
def execIllC2 (s : State) : Result := illegalInstr 0xC2 s
def execIllC3 (s : State) : Result := illegalInstr 0xC3 s
def execIllC7 (s : State) : Result := illegalInstr 0xC7 s
def execIllCB (s : State) : Result := illegalInstr 0xCB s
def execIllCF (s : State) : Result := illegalInstr 0xCF s
def execIllD2 (s : State) : Result := illegalInstr 0xD2 s
def execIllD3 (s : State) : Result := illegalInstr 0xD3 s
def execIllD4 (s : State) : Result := illegalInstr 0xD4 s
def execIllD7 (s : State) : Result := illegalInstr 0xD7 s
def execIllDA (s : State) : Result := illegalInstr 0xDA s
def execIllDB (s : State) : Result := illegalInstr 0xDB s
def execIllDC (s : State) : Result := illegalInstr 0xDC s
def execIllDF (s : State) : Result := illegalInstr 0xDF s
def execIllE2 (s : State) : Result := illegalInstr 0xE2 s
def execIllE3 (s : State) : Result := illegalInstr 0xE3 s
def execIllE7 (s : State) : Result := illegalInstr 0xE7 s
def execIllEB (s : State) : Result := illegalInstr 0xEB s
def execIllEF (s : State) : Result := illegalInstr 0xEF s
def execIllF2 (s : State) : Result := illegalInstr 0xF2 s
def execIllF3 (s : State) : Result := illegalInstr 0xF3 s
def execIllF4 (s : State) : Result := illegalInstr 0xF4 s
def execIllF7 (s : State) : Result := illegalInstr 0xF7 s
def execIllFA (s : State) : Result := illegalInstr 0xFA s
def execIllFB (s : State) : Result := illegalInstr 0xFB s
def execIllFC (s : State) : Result := illegalInstr 0xFC s
def execIllFF (s : State) : Result := illegalInstr 0xFF s

end Sys2Proof.Machine
end

