-- ==== Sys2Proof/Machine/LoadStore.lean ====
section
/-! DEFINITION. Meanings of the load, store and transfer instructions (R180 to R191). -/

namespace Sys2Proof.Machine

/-- LDA's operation (R180). -/
def opLda (m : Byte) (s : State) : State := (s.setA m).setZN m

/-- LDX's operation (R181). -/
def opLdx (m : Byte) (s : State) : State := (s.setX m).setZN m

/-- LDY's operation (R182). -/
def opLdy (m : Byte) (s : State) : State := (s.setY m).setZN m

/-! LDA (R180) -/

def execLdaImm (v : Byte) (s : State) : Result := readInstr opLda 2 (.imm v) s
def execLdaZp0 (zp : Byte) (s : State) : Result := readInstr opLda 3 (.zp0 zp) s
def execLdaZpx (zp : Byte) (s : State) : Result := readInstr opLda 4 (.zpx zp) s
def execLdaAbs (addr : Addr) (s : State) : Result := readInstr opLda 4 (.abs addr) s
def execLdaAbx (addr : Addr) (s : State) : Result := readInstr opLda 4 (.abx addr) s
def execLdaAby (addr : Addr) (s : State) : Result := readInstr opLda 4 (.aby addr) s
def execLdaIzx (zp : Byte) (s : State) : Result := readInstr opLda 6 (.izx zp) s
def execLdaIzy (zp : Byte) (s : State) : Result := readInstr opLda 5 (.izy zp) s

/-! LDX (R181) -/

def execLdxImm (v : Byte) (s : State) : Result := readInstr opLdx 2 (.imm v) s
def execLdxZp0 (zp : Byte) (s : State) : Result := readInstr opLdx 3 (.zp0 zp) s
def execLdxZpy (zp : Byte) (s : State) : Result := readInstr opLdx 4 (.zpy zp) s
def execLdxAbs (addr : Addr) (s : State) : Result := readInstr opLdx 4 (.abs addr) s
def execLdxAby (addr : Addr) (s : State) : Result := readInstr opLdx 4 (.aby addr) s

/-! LDY (R182) -/

def execLdyImm (v : Byte) (s : State) : Result := readInstr opLdy 2 (.imm v) s
def execLdyZp0 (zp : Byte) (s : State) : Result := readInstr opLdy 3 (.zp0 zp) s
def execLdyZpx (zp : Byte) (s : State) : Result := readInstr opLdy 4 (.zpx zp) s
def execLdyAbs (addr : Addr) (s : State) : Result := readInstr opLdy 4 (.abs addr) s
def execLdyAbx (addr : Addr) (s : State) : Result := readInstr opLdy 4 (.abx addr) s

/-! STA (R183) -/

def execStaZp0 (zp : Byte) (s : State) : Result := storeInstr s.cpu.a 3 (.zp0 zp) s
def execStaZpx (zp : Byte) (s : State) : Result := storeInstr s.cpu.a 4 (.zpx zp) s
def execStaAbs (addr : Addr) (s : State) : Result := storeInstr s.cpu.a 4 (.abs addr) s
def execStaAbx (addr : Addr) (s : State) : Result := storeInstr s.cpu.a 5 (.abx addr) s
def execStaAby (addr : Addr) (s : State) : Result := storeInstr s.cpu.a 5 (.aby addr) s
def execStaIzx (zp : Byte) (s : State) : Result := storeInstr s.cpu.a 6 (.izx zp) s
def execStaIzy (zp : Byte) (s : State) : Result := storeInstr s.cpu.a 6 (.izy zp) s

/-! STX (R184) -/

def execStxZp0 (zp : Byte) (s : State) : Result := storeInstr s.cpu.x 3 (.zp0 zp) s
def execStxZpy (zp : Byte) (s : State) : Result := storeInstr s.cpu.x 4 (.zpy zp) s
def execStxAbs (addr : Addr) (s : State) : Result := storeInstr s.cpu.x 4 (.abs addr) s

/-! STY (R185) -/

def execStyZp0 (zp : Byte) (s : State) : Result := storeInstr s.cpu.y 3 (.zp0 zp) s
def execStyZpx (zp : Byte) (s : State) : Result := storeInstr s.cpu.y 4 (.zpx zp) s
def execStyAbs (addr : Addr) (s : State) : Result := storeInstr s.cpu.y 4 (.abs addr) s

/-! TAX (R186) -/

def execTax (s : State) : Result := finish 2 ((s.setX s.cpu.a).setZN s.cpu.a)

/-! TAY (R187) -/

def execTay (s : State) : Result := finish 2 ((s.setY s.cpu.a).setZN s.cpu.a)

/-! TXA (R188) -/

def execTxa (s : State) : Result := finish 2 ((s.setA s.cpu.x).setZN s.cpu.x)

/-! TYA (R189) -/

def execTya (s : State) : Result := finish 2 ((s.setA s.cpu.y).setZN s.cpu.y)

/-! TSX (R190) -/

def execTsx (s : State) : Result := finish 2 ((s.setX s.cpu.sp).setZN s.cpu.sp)

/-! TXS (R191) -/

def execTxs (s : State) : Result := finish 2 (s.setSp s.cpu.x)

end Sys2Proof.Machine
end

