-- ==== Sys2Proof/Machine/Shift.lean ====
section
/-! DEFINITION. Meanings of the shift and rotate instructions (R230 to R233). -/

namespace Sys2Proof.Machine

/-- P after a shift: C is the bit shifted out, Z and N from the result. -/
def shiftFlags (out : Bool) (r p : Byte) : Byte := withZN r (withC out p)

/-- ASL (R230). -/
def aslResult (m _p : Byte) : Byte := m <<< 1
def aslFlags (m p : Byte) : Byte := shiftFlags (m.getLsbD 7) (aslResult m p) p

/-- LSR (R231). -/
def lsrResult (m _p : Byte) : Byte := m >>> 1
def lsrFlags (m p : Byte) : Byte := shiftFlags (m.getLsbD 0) (lsrResult m p) p

/-- ROL (R232): the old carry enters bit 0. -/
def rolResult (m p : Byte) : Byte := (m <<< 1) ||| if flagC p then 0x01 else 0
def rolFlags (m p : Byte) : Byte := shiftFlags (m.getLsbD 7) (rolResult m p) p

/-- ROR (R233): the old carry enters bit 7. -/
def rorResult (m p : Byte) : Byte := (m >>> 1) ||| if flagC p then 0x80 else 0
def rorFlags (m p : Byte) : Byte := shiftFlags (m.getLsbD 0) (rorResult m p) p

/-! ASL (R230) -/

def execAslAcc (s : State) : Result := modifyInstr aslResult aslFlags 2 .acc s
def execAslZp0 (zp : Byte) (s : State) : Result := modifyInstr aslResult aslFlags 5 (.zp0 zp) s
def execAslZpx (zp : Byte) (s : State) : Result := modifyInstr aslResult aslFlags 6 (.zpx zp) s
def execAslAbs (addr : Addr) (s : State) : Result := modifyInstr aslResult aslFlags 6 (.abs addr) s
def execAslAbx (addr : Addr) (s : State) : Result := modifyInstr aslResult aslFlags 7 (.abx addr) s

/-! LSR (R231) -/

def execLsrAcc (s : State) : Result := modifyInstr lsrResult lsrFlags 2 .acc s
def execLsrZp0 (zp : Byte) (s : State) : Result := modifyInstr lsrResult lsrFlags 5 (.zp0 zp) s
def execLsrZpx (zp : Byte) (s : State) : Result := modifyInstr lsrResult lsrFlags 6 (.zpx zp) s
def execLsrAbs (addr : Addr) (s : State) : Result := modifyInstr lsrResult lsrFlags 6 (.abs addr) s
def execLsrAbx (addr : Addr) (s : State) : Result := modifyInstr lsrResult lsrFlags 7 (.abx addr) s

/-! ROL (R232) -/

def execRolAcc (s : State) : Result := modifyInstr rolResult rolFlags 2 .acc s
def execRolZp0 (zp : Byte) (s : State) : Result := modifyInstr rolResult rolFlags 5 (.zp0 zp) s
def execRolZpx (zp : Byte) (s : State) : Result := modifyInstr rolResult rolFlags 6 (.zpx zp) s
def execRolAbs (addr : Addr) (s : State) : Result := modifyInstr rolResult rolFlags 6 (.abs addr) s
def execRolAbx (addr : Addr) (s : State) : Result := modifyInstr rolResult rolFlags 7 (.abx addr) s

/-! ROR (R233) -/

def execRorAcc (s : State) : Result := modifyInstr rorResult rorFlags 2 .acc s
def execRorZp0 (zp : Byte) (s : State) : Result := modifyInstr rorResult rorFlags 5 (.zp0 zp) s
def execRorZpx (zp : Byte) (s : State) : Result := modifyInstr rorResult rorFlags 6 (.zpx zp) s
def execRorAbs (addr : Addr) (s : State) : Result := modifyInstr rorResult rorFlags 6 (.abs addr) s
def execRorAbx (addr : Addr) (s : State) : Result := modifyInstr rorResult rorFlags 7 (.abx addr) s

end Sys2Proof.Machine
end

