-- ==== Sys2Proof/Machine/Stack.lean ====
section
/-! DEFINITION. Meanings of the stack instructions (R260 to R263). -/

namespace Sys2Proof.Machine

/-- PLA's operation (R262). -/
def pullA (s : State) : State :=
  let r := pull s
  (r.2.setA r.1).setZN r.1

/-- PLP's operation (R263). -/
def pullP (s : State) : State :=
  let r := pull s
  r.2.setP (pulledStatus r.1)

/-! PHA (R260) -/

def execPha (s : State) : Result := finish 3 (push s.cpu.a s)

/-! PHP (R261) -/

def execPhp (s : State) : Result := finish 3 (push (pushedByPhp s.cpu.p) s)

/-! PLA (R262) -/

def execPla (s : State) : Result := finish 4 (pullA s)

/-! PLP (R263) -/

def execPlp (s : State) : Result := finish 4 (pullP s)

end Sys2Proof.Machine
end

