-- ==== Sys2Proof/Machine/System.lean ====
section
/-! DEFINITION. Meanings of the flag instructions, BRK, RTI and NOP (R270 to R279). -/

namespace Sys2Proof.Machine

/-! CLC (R270) -/

def execClc (s : State) : Result := finish 2 (s.setP (withC false s.cpu.p))

/-! SEC (R271) -/

def execSec (s : State) : Result := finish 2 (s.setP (withC true s.cpu.p))

/-! CLI (R272) -/

def execCli (s : State) : Result := finish 2 (s.setP (withI false s.cpu.p))

/-! SEI (R273) -/

def execSei (s : State) : Result := finish 2 (s.setP (withI true s.cpu.p))

/-! CLV (R274) -/

def execClv (s : State) : Result := finish 2 (s.setP (withV false s.cpu.p))

/-! CLD (R275) -/

def execCld (s : State) : Result := finish 2 (s.setP (withD false s.cpu.p))

/-! SED (R276) -/

def execSed (s : State) : Result := finish 2 (s.setP (withD true s.cpu.p))

/-! BRK (R277) -/

def execBrk (s : State) : Result := finish 7 (enter 0xFFFE true (s.setPc (s.cpu.pc + 1)))

/-! RTI (R278) -/

def execRti (s : State) : Result := finish 6 (returnFromInterrupt s)

/-! NOP (R279) -/

def execNop (s : State) : Result := finish 2 s

end Sys2Proof.Machine
end

