-- ==== Sys2Proof/Machine/Dispatch.lean ====
section
/-! DEFINITION. The dispatch: one arm per instruction, each one call of its meaning. -/

namespace Sys2Proof.Machine

def exec (i : Instr) (s : State) : Host.Outcome State Fault Refusal :=
  match i with
  | .ldaImm v => Sys2Proof.Machine.execLdaImm v s
  | .ldaZp0 zp => Sys2Proof.Machine.execLdaZp0 zp s
  | .ldaZpx zp => Sys2Proof.Machine.execLdaZpx zp s
  | .ldaAbs addr => Sys2Proof.Machine.execLdaAbs addr s
  | .ldaAbx addr => Sys2Proof.Machine.execLdaAbx addr s
  | .ldaAby addr => Sys2Proof.Machine.execLdaAby addr s
  | .ldaIzx zp => Sys2Proof.Machine.execLdaIzx zp s
  | .ldaIzy zp => Sys2Proof.Machine.execLdaIzy zp s
  | .ldxImm v => Sys2Proof.Machine.execLdxImm v s
  | .ldxZp0 zp => Sys2Proof.Machine.execLdxZp0 zp s
  | .ldxZpy zp => Sys2Proof.Machine.execLdxZpy zp s
  | .ldxAbs addr => Sys2Proof.Machine.execLdxAbs addr s
  | .ldxAby addr => Sys2Proof.Machine.execLdxAby addr s
  | .ldyImm v => Sys2Proof.Machine.execLdyImm v s
  | .ldyZp0 zp => Sys2Proof.Machine.execLdyZp0 zp s
  | .ldyZpx zp => Sys2Proof.Machine.execLdyZpx zp s
  | .ldyAbs addr => Sys2Proof.Machine.execLdyAbs addr s
  | .ldyAbx addr => Sys2Proof.Machine.execLdyAbx addr s
  | .staZp0 zp => Sys2Proof.Machine.execStaZp0 zp s
  | .staZpx zp => Sys2Proof.Machine.execStaZpx zp s
  | .staAbs addr => Sys2Proof.Machine.execStaAbs addr s
  | .staAbx addr => Sys2Proof.Machine.execStaAbx addr s
  | .staAby addr => Sys2Proof.Machine.execStaAby addr s
  | .staIzx zp => Sys2Proof.Machine.execStaIzx zp s
  | .staIzy zp => Sys2Proof.Machine.execStaIzy zp s
  | .stxZp0 zp => Sys2Proof.Machine.execStxZp0 zp s
  | .stxZpy zp => Sys2Proof.Machine.execStxZpy zp s
  | .stxAbs addr => Sys2Proof.Machine.execStxAbs addr s
  | .styZp0 zp => Sys2Proof.Machine.execStyZp0 zp s
  | .styZpx zp => Sys2Proof.Machine.execStyZpx zp s
  | .styAbs addr => Sys2Proof.Machine.execStyAbs addr s
  | .tax => Sys2Proof.Machine.execTax s
  | .tay => Sys2Proof.Machine.execTay s
  | .txa => Sys2Proof.Machine.execTxa s
  | .tya => Sys2Proof.Machine.execTya s
  | .tsx => Sys2Proof.Machine.execTsx s
  | .txs => Sys2Proof.Machine.execTxs s
  | .adcImm v => Sys2Proof.Machine.execAdcImm v s
  | .adcZp0 zp => Sys2Proof.Machine.execAdcZp0 zp s
  | .adcZpx zp => Sys2Proof.Machine.execAdcZpx zp s
  | .adcAbs addr => Sys2Proof.Machine.execAdcAbs addr s
  | .adcAbx addr => Sys2Proof.Machine.execAdcAbx addr s
  | .adcAby addr => Sys2Proof.Machine.execAdcAby addr s
  | .adcIzx zp => Sys2Proof.Machine.execAdcIzx zp s
  | .adcIzy zp => Sys2Proof.Machine.execAdcIzy zp s
  | .sbcImm v => Sys2Proof.Machine.execSbcImm v s
  | .sbcZp0 zp => Sys2Proof.Machine.execSbcZp0 zp s
  | .sbcZpx zp => Sys2Proof.Machine.execSbcZpx zp s
  | .sbcAbs addr => Sys2Proof.Machine.execSbcAbs addr s
  | .sbcAbx addr => Sys2Proof.Machine.execSbcAbx addr s
  | .sbcAby addr => Sys2Proof.Machine.execSbcAby addr s
  | .sbcIzx zp => Sys2Proof.Machine.execSbcIzx zp s
  | .sbcIzy zp => Sys2Proof.Machine.execSbcIzy zp s
  | .cmpImm v => Sys2Proof.Machine.execCmpImm v s
  | .cmpZp0 zp => Sys2Proof.Machine.execCmpZp0 zp s
  | .cmpZpx zp => Sys2Proof.Machine.execCmpZpx zp s
  | .cmpAbs addr => Sys2Proof.Machine.execCmpAbs addr s
  | .cmpAbx addr => Sys2Proof.Machine.execCmpAbx addr s
  | .cmpAby addr => Sys2Proof.Machine.execCmpAby addr s
  | .cmpIzx zp => Sys2Proof.Machine.execCmpIzx zp s
  | .cmpIzy zp => Sys2Proof.Machine.execCmpIzy zp s
  | .cpxImm v => Sys2Proof.Machine.execCpxImm v s
  | .cpxZp0 zp => Sys2Proof.Machine.execCpxZp0 zp s
  | .cpxAbs addr => Sys2Proof.Machine.execCpxAbs addr s
  | .cpyImm v => Sys2Proof.Machine.execCpyImm v s
  | .cpyZp0 zp => Sys2Proof.Machine.execCpyZp0 zp s
  | .cpyAbs addr => Sys2Proof.Machine.execCpyAbs addr s
  | .andImm v => Sys2Proof.Machine.execAndImm v s
  | .andZp0 zp => Sys2Proof.Machine.execAndZp0 zp s
  | .andZpx zp => Sys2Proof.Machine.execAndZpx zp s
  | .andAbs addr => Sys2Proof.Machine.execAndAbs addr s
  | .andAbx addr => Sys2Proof.Machine.execAndAbx addr s
  | .andAby addr => Sys2Proof.Machine.execAndAby addr s
  | .andIzx zp => Sys2Proof.Machine.execAndIzx zp s
  | .andIzy zp => Sys2Proof.Machine.execAndIzy zp s
  | .oraImm v => Sys2Proof.Machine.execOraImm v s
  | .oraZp0 zp => Sys2Proof.Machine.execOraZp0 zp s
  | .oraZpx zp => Sys2Proof.Machine.execOraZpx zp s
  | .oraAbs addr => Sys2Proof.Machine.execOraAbs addr s
  | .oraAbx addr => Sys2Proof.Machine.execOraAbx addr s
  | .oraAby addr => Sys2Proof.Machine.execOraAby addr s
  | .oraIzx zp => Sys2Proof.Machine.execOraIzx zp s
  | .oraIzy zp => Sys2Proof.Machine.execOraIzy zp s
  | .eorImm v => Sys2Proof.Machine.execEorImm v s
  | .eorZp0 zp => Sys2Proof.Machine.execEorZp0 zp s
  | .eorZpx zp => Sys2Proof.Machine.execEorZpx zp s
  | .eorAbs addr => Sys2Proof.Machine.execEorAbs addr s
  | .eorAbx addr => Sys2Proof.Machine.execEorAbx addr s
  | .eorAby addr => Sys2Proof.Machine.execEorAby addr s
  | .eorIzx zp => Sys2Proof.Machine.execEorIzx zp s
  | .eorIzy zp => Sys2Proof.Machine.execEorIzy zp s
  | .bitZp0 zp => Sys2Proof.Machine.execBitZp0 zp s
  | .bitAbs addr => Sys2Proof.Machine.execBitAbs addr s
  | .incZp0 zp => Sys2Proof.Machine.execIncZp0 zp s
  | .incZpx zp => Sys2Proof.Machine.execIncZpx zp s
  | .incAbs addr => Sys2Proof.Machine.execIncAbs addr s
  | .incAbx addr => Sys2Proof.Machine.execIncAbx addr s
  | .decZp0 zp => Sys2Proof.Machine.execDecZp0 zp s
  | .decZpx zp => Sys2Proof.Machine.execDecZpx zp s
  | .decAbs addr => Sys2Proof.Machine.execDecAbs addr s
  | .decAbx addr => Sys2Proof.Machine.execDecAbx addr s
  | .inx => Sys2Proof.Machine.execInx s
  | .iny => Sys2Proof.Machine.execIny s
  | .dex => Sys2Proof.Machine.execDex s
  | .dey => Sys2Proof.Machine.execDey s
  | .aslAcc => Sys2Proof.Machine.execAslAcc s
  | .aslZp0 zp => Sys2Proof.Machine.execAslZp0 zp s
  | .aslZpx zp => Sys2Proof.Machine.execAslZpx zp s
  | .aslAbs addr => Sys2Proof.Machine.execAslAbs addr s
  | .aslAbx addr => Sys2Proof.Machine.execAslAbx addr s
  | .lsrAcc => Sys2Proof.Machine.execLsrAcc s
  | .lsrZp0 zp => Sys2Proof.Machine.execLsrZp0 zp s
  | .lsrZpx zp => Sys2Proof.Machine.execLsrZpx zp s
  | .lsrAbs addr => Sys2Proof.Machine.execLsrAbs addr s
  | .lsrAbx addr => Sys2Proof.Machine.execLsrAbx addr s
  | .rolAcc => Sys2Proof.Machine.execRolAcc s
  | .rolZp0 zp => Sys2Proof.Machine.execRolZp0 zp s
  | .rolZpx zp => Sys2Proof.Machine.execRolZpx zp s
  | .rolAbs addr => Sys2Proof.Machine.execRolAbs addr s
  | .rolAbx addr => Sys2Proof.Machine.execRolAbx addr s
  | .rorAcc => Sys2Proof.Machine.execRorAcc s
  | .rorZp0 zp => Sys2Proof.Machine.execRorZp0 zp s
  | .rorZpx zp => Sys2Proof.Machine.execRorZpx zp s
  | .rorAbs addr => Sys2Proof.Machine.execRorAbs addr s
  | .rorAbx addr => Sys2Proof.Machine.execRorAbx addr s
  | .bcc disp => Sys2Proof.Machine.execBcc disp s
  | .bcs disp => Sys2Proof.Machine.execBcs disp s
  | .beq disp => Sys2Proof.Machine.execBeq disp s
  | .bne disp => Sys2Proof.Machine.execBne disp s
  | .bmi disp => Sys2Proof.Machine.execBmi disp s
  | .bpl disp => Sys2Proof.Machine.execBpl disp s
  | .bvc disp => Sys2Proof.Machine.execBvc disp s
  | .bvs disp => Sys2Proof.Machine.execBvs disp s
  | .jmpAbs addr => Sys2Proof.Machine.execJmpAbs addr s
  | .jmpInd ptr => Sys2Proof.Machine.execJmpInd ptr s
  | .jsr addr => Sys2Proof.Machine.execJsr addr s
  | .rts => Sys2Proof.Machine.execRts s
  | .pha => Sys2Proof.Machine.execPha s
  | .php => Sys2Proof.Machine.execPhp s
  | .pla => Sys2Proof.Machine.execPla s
  | .plp => Sys2Proof.Machine.execPlp s
  | .clc => Sys2Proof.Machine.execClc s
  | .sec => Sys2Proof.Machine.execSec s
  | .cli => Sys2Proof.Machine.execCli s
  | .sei => Sys2Proof.Machine.execSei s
  | .clv => Sys2Proof.Machine.execClv s
  | .cld => Sys2Proof.Machine.execCld s
  | .sed => Sys2Proof.Machine.execSed s
  | .brk => Sys2Proof.Machine.execBrk s
  | .rti => Sys2Proof.Machine.execRti s
  | .nop => Sys2Proof.Machine.execNop s
  | .ill02 => Sys2Proof.Machine.execIll02 s
  | .ill03 => Sys2Proof.Machine.execIll03 s
  | .ill04 => Sys2Proof.Machine.execIll04 s
  | .ill07 => Sys2Proof.Machine.execIll07 s
  | .ill0B => Sys2Proof.Machine.execIll0B s
  | .ill0C => Sys2Proof.Machine.execIll0C s
  | .ill0F => Sys2Proof.Machine.execIll0F s
  | .ill12 => Sys2Proof.Machine.execIll12 s
  | .ill13 => Sys2Proof.Machine.execIll13 s
  | .ill14 => Sys2Proof.Machine.execIll14 s
  | .ill17 => Sys2Proof.Machine.execIll17 s
  | .ill1A => Sys2Proof.Machine.execIll1A s
  | .ill1B => Sys2Proof.Machine.execIll1B s
  | .ill1C => Sys2Proof.Machine.execIll1C s
  | .ill1F => Sys2Proof.Machine.execIll1F s
  | .ill22 => Sys2Proof.Machine.execIll22 s
  | .ill23 => Sys2Proof.Machine.execIll23 s
  | .ill27 => Sys2Proof.Machine.execIll27 s
  | .ill2B => Sys2Proof.Machine.execIll2B s
  | .ill2F => Sys2Proof.Machine.execIll2F s
  | .ill32 => Sys2Proof.Machine.execIll32 s
  | .ill33 => Sys2Proof.Machine.execIll33 s
  | .ill34 => Sys2Proof.Machine.execIll34 s
  | .ill37 => Sys2Proof.Machine.execIll37 s
  | .ill3A => Sys2Proof.Machine.execIll3A s
  | .ill3B => Sys2Proof.Machine.execIll3B s
  | .ill3C => Sys2Proof.Machine.execIll3C s
  | .ill3F => Sys2Proof.Machine.execIll3F s
  | .ill42 => Sys2Proof.Machine.execIll42 s
  | .ill43 => Sys2Proof.Machine.execIll43 s
  | .ill44 => Sys2Proof.Machine.execIll44 s
  | .ill47 => Sys2Proof.Machine.execIll47 s
  | .ill4B => Sys2Proof.Machine.execIll4B s
  | .ill4F => Sys2Proof.Machine.execIll4F s
  | .ill52 => Sys2Proof.Machine.execIll52 s
  | .ill53 => Sys2Proof.Machine.execIll53 s
  | .ill54 => Sys2Proof.Machine.execIll54 s
  | .ill57 => Sys2Proof.Machine.execIll57 s
  | .ill5A => Sys2Proof.Machine.execIll5A s
  | .ill5B => Sys2Proof.Machine.execIll5B s
  | .ill5C => Sys2Proof.Machine.execIll5C s
  | .ill5F => Sys2Proof.Machine.execIll5F s
  | .ill62 => Sys2Proof.Machine.execIll62 s
  | .ill63 => Sys2Proof.Machine.execIll63 s
  | .ill64 => Sys2Proof.Machine.execIll64 s
  | .ill67 => Sys2Proof.Machine.execIll67 s
  | .ill6B => Sys2Proof.Machine.execIll6B s
  | .ill6F => Sys2Proof.Machine.execIll6F s
  | .ill72 => Sys2Proof.Machine.execIll72 s
  | .ill73 => Sys2Proof.Machine.execIll73 s
  | .ill74 => Sys2Proof.Machine.execIll74 s
  | .ill77 => Sys2Proof.Machine.execIll77 s
  | .ill7A => Sys2Proof.Machine.execIll7A s
  | .ill7B => Sys2Proof.Machine.execIll7B s
  | .ill7C => Sys2Proof.Machine.execIll7C s
  | .ill7F => Sys2Proof.Machine.execIll7F s
  | .ill80 => Sys2Proof.Machine.execIll80 s
  | .ill82 => Sys2Proof.Machine.execIll82 s
  | .ill83 => Sys2Proof.Machine.execIll83 s
  | .ill87 => Sys2Proof.Machine.execIll87 s
  | .ill89 => Sys2Proof.Machine.execIll89 s
  | .ill8B => Sys2Proof.Machine.execIll8B s
  | .ill8F => Sys2Proof.Machine.execIll8F s
  | .ill92 => Sys2Proof.Machine.execIll92 s
  | .ill93 => Sys2Proof.Machine.execIll93 s
  | .ill97 => Sys2Proof.Machine.execIll97 s
  | .ill9B => Sys2Proof.Machine.execIll9B s
  | .ill9C => Sys2Proof.Machine.execIll9C s
  | .ill9E => Sys2Proof.Machine.execIll9E s
  | .ill9F => Sys2Proof.Machine.execIll9F s
  | .illA3 => Sys2Proof.Machine.execIllA3 s
  | .illA7 => Sys2Proof.Machine.execIllA7 s
  | .illAB => Sys2Proof.Machine.execIllAB s
  | .illAF => Sys2Proof.Machine.execIllAF s
  | .illB2 => Sys2Proof.Machine.execIllB2 s
  | .illB3 => Sys2Proof.Machine.execIllB3 s
  | .illB7 => Sys2Proof.Machine.execIllB7 s
  | .illBB => Sys2Proof.Machine.execIllBB s
  | .illBF => Sys2Proof.Machine.execIllBF s
  | .illC2 => Sys2Proof.Machine.execIllC2 s
  | .illC3 => Sys2Proof.Machine.execIllC3 s
  | .illC7 => Sys2Proof.Machine.execIllC7 s
  | .illCB => Sys2Proof.Machine.execIllCB s
  | .illCF => Sys2Proof.Machine.execIllCF s
  | .illD2 => Sys2Proof.Machine.execIllD2 s
  | .illD3 => Sys2Proof.Machine.execIllD3 s
  | .illD4 => Sys2Proof.Machine.execIllD4 s
  | .illD7 => Sys2Proof.Machine.execIllD7 s
  | .illDA => Sys2Proof.Machine.execIllDA s
  | .illDB => Sys2Proof.Machine.execIllDB s
  | .illDC => Sys2Proof.Machine.execIllDC s
  | .illDF => Sys2Proof.Machine.execIllDF s
  | .illE2 => Sys2Proof.Machine.execIllE2 s
  | .illE3 => Sys2Proof.Machine.execIllE3 s
  | .illE7 => Sys2Proof.Machine.execIllE7 s
  | .illEB => Sys2Proof.Machine.execIllEB s
  | .illEF => Sys2Proof.Machine.execIllEF s
  | .illF2 => Sys2Proof.Machine.execIllF2 s
  | .illF3 => Sys2Proof.Machine.execIllF3 s
  | .illF4 => Sys2Proof.Machine.execIllF4 s
  | .illF7 => Sys2Proof.Machine.execIllF7 s
  | .illFA => Sys2Proof.Machine.execIllFA s
  | .illFB => Sys2Proof.Machine.execIllFB s
  | .illFC => Sys2Proof.Machine.execIllFC s
  | .illFF => Sys2Proof.Machine.execIllFF s

end Sys2Proof.Machine
end

