-- ==== Sys2Proof/Machine/Tick.lean ====
section
/-! DEFINITION. The CPU tick (R150), the Bus tick (R400), the host's calls (R417), and the placing of one instruction where the
next step fetches. -/

namespace Sys2Proof.Machine

/-- One byte of the instruction stream (R151): read at PC, then PC advances modulo 65536. -/
def readCode (s : State) : Byte × State :=
  let r := cpuRead s s.cpu.pc
  (r.1, r.2.setPc (s.cpu.pc + 1))

/-- Fetch and decode (R151, R123): the opcode, then as many operand bytes as its mode has, in increasing address order. Every
read of operand bytes comes before any other read of the instruction (R169), so they are made here; the byte of IMM,
which `Operand()` reads, is the only read of such an instruction after its opcode (log entry 15). -/
def fetch (s : State) : Instr × State :=
  let op := readCode s
  let n := operandCount op.1
  if n = 0 then (instrOf op.1 0 0, op.2)
  else
    let b1 := readCode op.2
    if n = 1 then (instrOf op.1 b1.1 0, b1.2)
    else
      let b2 := readCode b1.2
      (instrOf op.1 b1.1 b2.1, b2.2)

/-- The last line of R150: `cycles` counts down on every CPU tick. -/
def countDown (s : State) : State := s.setCycles (s.cpu.cycles - 1)

/-- `CpuTick` (R150). -/
def cpuTick (s : State) : Result :=
  if s.cpu.cycles = 0 then
    let f := fetch s
    andThen (exec f.1 f.2) fun t => .next (countDown t)
  else .next (countDown s)

/-- Step 2 of R400: in a CPU slot, a DMA micro-step or a CPU tick, never both. -/
def cpuSlot (s : State) : Result :=
  if s.bus.clock % 3 = 0 then
    if s.bus.dmaTransfer then .next (dmaStep s) else cpuTick s
  else .next s

/-- `BusTick` (R400). -/
def busTick (s : State) : Result := andThen (cpuSlot (ppuTick s)) fun t => .next (endBusTick t)

/-! ## The host surface (R417) -/

/-- The calls a model refuses before a cartridge is inserted: the Bus tick (R82, D11, U10). Every other call has the effect that
its rule and R82 give it with no cartridge (log entry 11). -/
def needsCartridge : HostCall → Bool
  | .busTick => true
  | .busReset | .insertCartridge _ | .cpuRead _ _ | .cpuWrite _ _ | .setControllers _ _ | .cpuTick | .cpuReset | .raiseIrq
  | .raiseNmi | .isInstructionComplete | .ppuTick | .ppuRead _ _ | .ppuWrite _ _ | .takeFrameComplete | .takeNmiRequest
  | .getRenderedFrame => false

/-- A peek read (R99, R313, D24): no state of the block changes; the byte is a free value (log entry 10). -/
def peek (s : State) : State :=
  { s.setPpu { s.ppu with freeCount := s.ppu.freeCount + 1 } with
    reply := .byte (Config.freeByte s.ppu.freeCount) }

/-- The effect of one host call (R417). -/
def makeCall (c : HostCall) (s : State) : Result :=
  match c with
  | .busTick => busTick s
  | .busReset => .next (busReset s)
  | .insertCartridge cart => if cart.wf then .next { s with cart := some cart } else .refused .malformedCartridge
  | .cpuRead a isPeek =>
    if isPeek then .next (peek s)
    else
      let r := cpuRead s a
      .next { r.2 with reply := .byte r.1 }
  | .cpuWrite a d => .next (cpuWrite s a d)
  | .setControllers c0 c1 => .next { s with ctrlIn0 := c0, ctrlIn1 := c1 }
  | .cpuTick => cpuTick s
  | .cpuReset => .next (cpuReset s)
  | .raiseIrq => .next (raiseIrq s)
  | .raiseNmi => .next (raiseNmi s)
  | .isInstructionComplete => .next { s with reply := .flag (decide (s.cpu.cycles = 0)) }
  | .ppuTick => .next (ppuTick s)
  | .ppuRead port isPeek =>
    if isPeek then .next (peek s)
    else
      let r := ppuPortRead s.cart s.params.grayMask s.ppu port
      .next { s.setPpu r.2 with reply := .byte r.1 }
  | .ppuWrite port d => .next (s.setPpu (ppuPortWrite s.cart s.ppu port d))
  | .takeFrameComplete =>
    .next { s.setPpu { s.ppu with frameComplete := false } with reply := .flag s.ppu.frameComplete }
  | .takeNmiRequest => .next { s.setPpu { s.ppu with nmiRequest := false } with reply := .flag s.ppu.nmiRequest }
  | .getRenderedFrame => .next { s with reply := .picture s.ppu.frame }

/-- A host call, refused when it needs the cartridge and none is inserted. -/
def hostCall (c : HostCall) (s : State) : Result :=
  if needsCartridge c && s.cart.isNone then .refused .noCartridge else makeCall c s

/-- The host's next call: the oldest one waiting, else a Bus tick ("the host drives the Bus's single clock-tick operation in a
loop", 49_bus_dma_controllers.md). -/
def nextCall (s : State) : Result :=
  match s.calls with
  | [] => hostCall .busTick s
  | c :: rest => hostCall c { s with calls := rest }

/-! ## Placing an instruction -/

/-- The byte at a CPU address can be placed: it is RAM, or the inserted cartridge's PRG image. -/
def placeable (a : Addr) : Bool := decide (a.toNat ≤ 0x1FFF) || decide (0x8000 ≤ a.toNat)

/-- Put a byte where a fetch at `a` finds it: in RAM or in the PRG image (an image loaded from outside). -/
def placeByte (a : Addr) (b : Byte) (s : State) : State :=
  if 0x8000 ≤ a.toNat then
    match s.cart with
    | some c => { s with cart := some { c with prg := c.prg.write (c.prgOffset a) b } }
    | none => s
  else s.setBus { s.bus with ram := s.bus.ram.write (a &&& 0x07FF).toNat b }

/-- Put a list of bytes at `a` and the addresses after it. -/
def placeBytes : Addr → List Byte → State → State
  | _, [], s => s
  | a, b :: rest, s => placeBytes (a + 1) rest (placeByte a b s)

/-- The state in which the next step is a CPU tick that fetches: no call waits, a cartridge is inserted, no DMA runs, the clock
is at a CPU slot, no cycles remain, and PC is where three bytes can be placed. -/
def atFetch (s : State) : State :=
  let pc := s.cpu.pc
  { s with
    calls := []
    cart := some (s.cart.getD Config.blankCartridge)
    bus := { s.bus with
      clock := s.bus.clock + (3 - s.bus.clock % 3) % 3
      dmaTransfer := false, dmaDummy := true }
    cpu := { s.cpu with
      cycles := 0
      pc := if placeable pc && placeable (pc + 1) && placeable (pc + 2) then pc else 0 } }

/-- The state in which the next step fetches and runs the instruction whose bytes are given. -/
def loadInstruction (bytes : List Byte) (s : State) : State :=
  let s := atFetch s
  placeBytes s.cpu.pc bytes s

end Sys2Proof.Machine
end

