-- ==== Sys2Proof/Machine/Step.lean ====
section
/-! DEFINITION. One step of the machine: the host's next call, which is a Bus tick when no other call waits (R417, R418). -/

namespace Sys2Proof.Machine

/-- One step. -/
def step (s : State) : Host.Outcome State Fault Refusal := nextCall s

/-- The state whose next step fetches and runs the instruction of the opcode table whose low `nbits` bits are `w`: the load of a
program from outside (log entry 3). -/
def State.withFetchWord (s : State) (nbits w : Nat) : State := loadInstruction (tableBytes nbits w) s

end Sys2Proof.Machine
end

