-- ==== Sys2Proof/Safety.lean ====
section
/-! DEFINITION. The words the claims use: the bits of P by name, the forms of an instruction as its rule lists them, the places
where a byte is stored, the invariants of a good state, and the states in which a step goes on. -/

namespace Sys2Proof.Machine

/-! ## The status register by its bits -/

/-- The eight bits of P by name (R25). -/
structure StatusBits where
  c : Bool
  z : Bool
  i : Bool
  d : Bool
  b : Bool
  u : Bool
  v : Bool
  n : Bool
deriving DecidableEq, Repr

/-- The bits of a status byte (R25): C is bit 0, N is bit 7. -/
def statusBits (p : Byte) : StatusBits :=
  { c := p.getLsbD 0, z := p.getLsbD 1, i := p.getLsbD 2, d := p.getLsbD 3
    b := p.getLsbD 4, u := p.getLsbD 5, v := p.getLsbD 6, n := p.getLsbD 7 }

/-- The byte of eight status bits (R25). -/
def StatusBits.byte (f : StatusBits) : Byte :=
  BitVec.ofBool f.n ++ BitVec.ofBool f.v ++ BitVec.ofBool f.u ++ BitVec.ofBool f.b ++
    BitVec.ofBool f.d ++ BitVec.ofBool f.i ++ BitVec.ofBool f.z ++ BitVec.ofBool f.c

/-- The status bits after `SetZN(r)` (R171). -/
def StatusBits.zn (f : StatusBits) (r : Byte) : StatusBits := { f with z := decide (r = 0), n := r.getLsbD 7 }

/-! ## Forms of instructions -/

/-- One form of an instruction as the "Operands" line of its rule gives it: opcode, operand in its mode, base cycle count. -/
structure Form where
  instr : Instr
  opcode : Byte
  operand : Operand
  base : Nat

/-- The form's instruction is encoded as the opcode byte and the operand's bytes (R120). -/
def Form.encoded (f : Form) : Prop := encode f.instr = f.opcode :: f.operand.bytes

/-- The form reads its operand by R167, then gives the CPU the registers `cpu` says from the value read and the CPU's registers,
and takes its base count, and one more when the mode crossed a page (R152); nothing else changes but what the reads
change. -/
def Form.reads (f : Form) (cpu : Byte → Cpu → Cpu) : Prop :=
  f.encoded ∧ ∀ s : State,
    exec f.instr s = .next
      { (fetchOperand f.operand s).st with
        cpu := { cpu (fetchOperand f.operand s).value s.cpu with
                 cycles := f.base + if (fetchOperand f.operand s).crossed then 1 else 0 } }

/-- The form reads the byte at its effective address and writes the result of `result` back there (R167, R168): the CPU gets the
status bits `bits` says, and the base count is taken. -/
def Form.modifies (f : Form) (result : Byte → Bool → Byte) (bits : Byte → StatusBits → StatusBits) : Prop :=
  f.encoded ∧ ∀ s : State,
    let r := resolve f.operand s
    let m := cpuRead r.st r.ea
    let t := cpuWrite m.2 r.ea (result m.1 (statusBits s.cpu.p).c)
    exec f.instr s = .next
      { t with cpu := { s.cpu with p := (bits m.1 (statusBits s.cpu.p)).byte, cycles := f.base } }

/-- The form stores a byte of the CPU's registers at its effective address (R183 to R185), and only that. -/
def Form.stores (f : Form) (value : Cpu → Byte) : Prop :=
  f.encoded ∧ ∀ s : State,
    let r := resolve f.operand s
    exec f.instr s = .next
      { cpuWrite r.st r.ea (value s.cpu) with cpu := { s.cpu with cycles := f.base } }

/-- The form changes CPU registers only, and takes its base count. -/
def Form.sets (f : Form) (cpu : Cpu → Cpu) : Prop :=
  f.encoded ∧ ∀ s : State, exec f.instr s = .next { s with cpu := { cpu s.cpu with cycles := f.base } }

/-- The form is a conditional branch (R241): taken when `cond` holds of the status bits, to the address of the next instruction
plus the signed displacement. -/
def Form.branches (f : Form) (disp : Byte) (cond : StatusBits → Bool) : Prop :=
  f.encoded ∧ ∀ s : State,
    let target : Addr := BitVec.ofInt 16 (s.cpu.pc.toNat + disp.toInt)
    exec f.instr s = .next
      { s with cpu :=
          if cond (statusBits s.cpu.p) then
            { s.cpu with pc := target, cycles := if target.toNat / 256 = s.cpu.pc.toNat / 256 then 3 else 4 }
          else { s.cpu with cycles := f.base } }

/-- The form is a one-byte no-op that takes `ILLEGAL_CYCLES` of its opcode, whose default is the form's base (R125, R282). -/
def Form.idles (f : Form) : Prop :=
  f.encoded ∧ illegalCycles Config.params f.opcode = f.base ∧
    ∀ s : State, exec f.instr s = .next { s with cpu := { s.cpu with cycles := illegalCycles s.params f.opcode } }

/-- The illegal opcodes as R125 lists them by their default counts, 2 to 8. -/
def illegalForms : List Form :=
    [⟨.ill02, 0x02, .imp, 2⟩, ⟨.ill0B, 0x0B, .imp, 2⟩, ⟨.ill12, 0x12, .imp, 2⟩, ⟨.ill1A, 0x1A, .imp, 2⟩, ⟨.ill22, 0x22, .imp, 2⟩,
     ⟨.ill2B, 0x2B, .imp, 2⟩, ⟨.ill32, 0x32, .imp, 2⟩, ⟨.ill3A, 0x3A, .imp, 2⟩, ⟨.ill42, 0x42, .imp, 2⟩, ⟨.ill4B, 0x4B, .imp, 2⟩,
     ⟨.ill52, 0x52, .imp, 2⟩, ⟨.ill5A, 0x5A, .imp, 2⟩, ⟨.ill62, 0x62, .imp, 2⟩, ⟨.ill6B, 0x6B, .imp, 2⟩, ⟨.ill72, 0x72, .imp, 2⟩,
     ⟨.ill7A, 0x7A, .imp, 2⟩, ⟨.ill80, 0x80, .imp, 2⟩, ⟨.ill82, 0x82, .imp, 2⟩, ⟨.ill89, 0x89, .imp, 2⟩, ⟨.ill8B, 0x8B, .imp, 2⟩,
     ⟨.ill92, 0x92, .imp, 2⟩, ⟨.illAB, 0xAB, .imp, 2⟩, ⟨.illB2, 0xB2, .imp, 2⟩, ⟨.illC2, 0xC2, .imp, 2⟩, ⟨.illCB, 0xCB, .imp, 2⟩,
     ⟨.illD2, 0xD2, .imp, 2⟩, ⟨.illDA, 0xDA, .imp, 2⟩, ⟨.illE2, 0xE2, .imp, 2⟩, ⟨.illEB, 0xEB, .imp, 2⟩, ⟨.illF2, 0xF2, .imp, 2⟩,
     ⟨.illFA, 0xFA, .imp, 2⟩] ++
    [⟨.ill04, 0x04, .imp, 3⟩, ⟨.ill44, 0x44, .imp, 3⟩, ⟨.ill64, 0x64, .imp, 3⟩, ⟨.ill87, 0x87, .imp, 3⟩, ⟨.illA7, 0xA7, .imp, 3⟩] ++
    [⟨.ill0C, 0x0C, .imp, 4⟩, ⟨.ill14, 0x14, .imp, 4⟩, ⟨.ill1C, 0x1C, .imp, 4⟩, ⟨.ill34, 0x34, .imp, 4⟩, ⟨.ill3C, 0x3C, .imp, 4⟩,
     ⟨.ill54, 0x54, .imp, 4⟩, ⟨.ill5C, 0x5C, .imp, 4⟩, ⟨.ill74, 0x74, .imp, 4⟩, ⟨.ill7C, 0x7C, .imp, 4⟩, ⟨.ill8F, 0x8F, .imp, 4⟩,
     ⟨.ill97, 0x97, .imp, 4⟩, ⟨.illAF, 0xAF, .imp, 4⟩, ⟨.illB7, 0xB7, .imp, 4⟩, ⟨.illBB, 0xBB, .imp, 4⟩, ⟨.illBF, 0xBF, .imp, 4⟩,
     ⟨.illD4, 0xD4, .imp, 4⟩, ⟨.illDC, 0xDC, .imp, 4⟩, ⟨.illF4, 0xF4, .imp, 4⟩, ⟨.illFC, 0xFC, .imp, 4⟩] ++
    [⟨.ill07, 0x07, .imp, 5⟩, ⟨.ill27, 0x27, .imp, 5⟩, ⟨.ill47, 0x47, .imp, 5⟩, ⟨.ill67, 0x67, .imp, 5⟩, ⟨.ill9B, 0x9B, .imp, 5⟩,
     ⟨.ill9C, 0x9C, .imp, 5⟩, ⟨.ill9E, 0x9E, .imp, 5⟩, ⟨.ill9F, 0x9F, .imp, 5⟩, ⟨.illB3, 0xB3, .imp, 5⟩, ⟨.illC7, 0xC7, .imp, 5⟩,
     ⟨.illE7, 0xE7, .imp, 5⟩] ++
    [⟨.ill0F, 0x0F, .imp, 6⟩, ⟨.ill17, 0x17, .imp, 6⟩, ⟨.ill2F, 0x2F, .imp, 6⟩, ⟨.ill37, 0x37, .imp, 6⟩, ⟨.ill4F, 0x4F, .imp, 6⟩,
     ⟨.ill57, 0x57, .imp, 6⟩, ⟨.ill6F, 0x6F, .imp, 6⟩, ⟨.ill77, 0x77, .imp, 6⟩, ⟨.ill83, 0x83, .imp, 6⟩, ⟨.ill93, 0x93, .imp, 6⟩,
     ⟨.illA3, 0xA3, .imp, 6⟩, ⟨.illCF, 0xCF, .imp, 6⟩, ⟨.illD7, 0xD7, .imp, 6⟩, ⟨.illEF, 0xEF, .imp, 6⟩, ⟨.illF7, 0xF7, .imp, 6⟩] ++
    [⟨.ill1B, 0x1B, .imp, 7⟩, ⟨.ill1F, 0x1F, .imp, 7⟩, ⟨.ill3B, 0x3B, .imp, 7⟩, ⟨.ill3F, 0x3F, .imp, 7⟩, ⟨.ill5B, 0x5B, .imp, 7⟩,
     ⟨.ill5F, 0x5F, .imp, 7⟩, ⟨.ill7B, 0x7B, .imp, 7⟩, ⟨.ill7F, 0x7F, .imp, 7⟩, ⟨.illDB, 0xDB, .imp, 7⟩, ⟨.illDF, 0xDF, .imp, 7⟩,
     ⟨.illFB, 0xFB, .imp, 7⟩, ⟨.illFF, 0xFF, .imp, 7⟩] ++
    [⟨.ill03, 0x03, .imp, 8⟩, ⟨.ill13, 0x13, .imp, 8⟩, ⟨.ill23, 0x23, .imp, 8⟩, ⟨.ill33, 0x33, .imp, 8⟩, ⟨.ill43, 0x43, .imp, 8⟩,
     ⟨.ill53, 0x53, .imp, 8⟩, ⟨.ill63, 0x63, .imp, 8⟩, ⟨.ill73, 0x73, .imp, 8⟩, ⟨.illC3, 0xC3, .imp, 8⟩, ⟨.illD3, 0xD3, .imp, 8⟩,
     ⟨.illE3, 0xE3, .imp, 8⟩, ⟨.illF3, 0xF3, .imp, 8⟩]

/-! ## Many steps of one agent -/

/-- Read `n` bytes of the instruction stream (R151). -/
def readCodes : Nat → State → List Byte × State
  | 0, s => ([], s)
  | n + 1, s =>
    let first := readCode s
    let rest := readCodes n first.2
    (first.1 :: rest.1, rest.2)

/-- `n` CPU ticks in a row. -/
def cpuTicks : Nat → State → Result
  | 0, s => .next s
  | n + 1, s => andThen (cpuTick s) (cpuTicks n)

/-- `n` Bus ticks in a row. -/
def busTicks : Nat → State → Result
  | 0, s => .next s
  | n + 1, s => andThen (busTick s) (busTicks n)

/-- `n` PPU ticks in a row. -/
def ppuTicks (cart : Option Cartridge) (gray : BitVec 6) : Nat → Ppu → Ppu
  | 0, p => p
  | n + 1, p => ppuTicks cart gray n (ppuTickOf cart gray p)

/-- The raster position as one number, 0 at the start of the pre-render line (R47). -/
def rasterIndex (p : Ppu) : Int := (p.scanline + 1) * 341 + p.cycle

/-! ## Raster positions (R340) -/

/-- The PPU is on a visible line, at a cycle from `first` to `last`. -/
def Ppu.onVisible (p : Ppu) (first last : Nat) : Bool :=
  decide (0 ≤ p.scanline ∧ p.scanline ≤ 239 ∧ first ≤ p.cycle ∧ p.cycle ≤ last)

/-- The PPU is where the shifters move and the fetches run: cycles 2 to 258 and 321 to 337 of lines -1 to 239. -/
def Ppu.inFetchWindow (p : Ppu) : Bool :=
  decide (-1 ≤ p.scanline ∧ p.scanline ≤ 239 ∧
    ((2 ≤ p.cycle ∧ p.cycle ≤ 258) ∨ (321 ≤ p.cycle ∧ p.cycle ≤ 337)))

/-- The PPU is at place `k` of the 8-cycle schedule of R343. -/
def Ppu.fetchSlot (p : Ppu) (k : Nat) : Bool := p.inFetchWindow && decide ((p.cycle - 1) % 8 = k)

/-- The state after `n` CPU reads of one address. -/
def afterReads (a : Addr) : Nat → State → State
  | 0, s => s
  | n + 1, s => afterReads a n (cpuRead s a).2

/-! ## The sprite evaluation as the rule writes it -/

/-- One turn of the loop of R360, for OAM entry `e`: how many qualified so far, and the PPU. -/
def evaluationTurn (sl : Int) (acc : Nat × Ppu) (e : Nat) : Nat × Ppu :=
  let n := acc.1
  let p := acc.2
  let h : Int := if p.ctrl.getLsbD 5 then 16 else 8
  let d : Int := sl - (p.oam.read (4 * e)).toNat
  if 0 ≤ d ∧ d < h then
    if n < 8 then
      (n + 1,
       { p with
         zeroPossible := p.zeroPossible || decide (e = 0)
         spr := p.spr.set n
           { y := p.oam.read (4 * e), id := p.oam.read (4 * e + 1), attr := p.oam.read (4 * e + 2)
             x := p.oam.read (4 * e + 3), patLo := 0, patHi := 0 } })
    else (n + 1, p)
  else (n, p)

/-- The loop of R360 over the 64 OAM entries, ascending. -/
def evaluationLoop (sl : Int) (p : Ppu) : Ppu :=
  let start := { p with spr := List.replicate 8 Sprite.empty, zeroPossible := false }
  let done := (List.range 64).foldl (evaluationTurn sl) (0, start)
  { done.2 with
    sprCount := min done.1 8
    status := { done.2.status with spriteOverflow := done.2.status.spriteOverflow || decide (8 < done.1) } }

/-! ## Places of bytes -/

/-- A place that holds a byte: in system RAM, in the PPU's memories, in the cartridge. -/
inductive Place where
  | ram (k : Nat)
  | nametable0 (k : Nat)
  | nametable1 (k : Nat)
  | palette (k : Nat)
  | oam (k : Nat)
  | pattern (k : Nat)
  | picture (k : Nat)
  | prg (k : Nat)
  | chr (k : Nat)
deriving DecidableEq, Repr

/-- The byte a place holds; 0 for a cartridge's place when none is inserted. -/
def State.byteAt (s : State) : Place → Byte
  | .ram k => s.bus.ram.read k
  | .nametable0 k => s.ppu.nt0.read k
  | .nametable1 k => s.ppu.nt1.read k
  | .palette k => s.ppu.pal.read k
  | .oam k => s.ppu.oam.read k
  | .pattern k => s.ppu.pat.read k
  | .picture k => s.ppu.frame.read k
  | .prg k => match s.cart with
    | some c => c.prg.read k
    | none => 0
  | .chr k => match s.cart with
    | some c => c.chr.read k
    | none => 0

/-- The place a write in the PPU address space stores to (R321). -/
def ppuPlace (cart : Option Cartridge) (addr : Addr) : Place :=
  let a : BitVec 14 := addr.setWidth 14
  if a.toNat ≤ 0x1FFF then .pattern a.toNat
  else if a.toNat ≤ 0x3EFF then
    if nametableBank cart a then .nametable1 (a &&& 0x03FF).toNat else .nametable0 (a &&& 0x03FF).toNat
  else .palette (palIndex a)

/-- The place a CPU write to an address stores to, if any (R72, R307, R309): RAM, OAM through port 4, PPU memory through
port 7. -/
def storePlace (s : State) (a : Addr) : Option Place :=
  if s.cart.isSome ∧ 0x8000 ≤ a.toNat then none
  else if a.toNat ≤ 0x1FFF then some (.ram (a.toNat % 0x800))
  else if a.toNat ≤ 0x3FFF then
    if a.toNat % 8 = 4 then some (.oam s.ppu.oamAddr.toNat)
    else if a.toNat % 8 = 7 then some (ppuPlace s.cart (dataAddress s.ppu))
    else none
  else none

/-- The second state differs from the first at most in the CPU's registers and in what a CPU read of some address changes (R89):
the vertical-blank bit, the write toggle, the data buffer, `v` and the controller registers. -/
def sameButReads (s t : State) : Prop :=
  t = { s with
    cpu := t.cpu
    ppu := { s.ppu with
      status := { s.ppu.status with verticalBlank := t.ppu.status.verticalBlank }
      v := t.ppu.v, w := t.ppu.w, dataBuffer := t.ppu.dataBuffer }
    bus := { s.bus with ctrlShift0 := t.bus.ctrlShift0, ctrlShift1 := t.bus.ctrlShift1 } }

/-- The second state differs from the first at most in what CPU reads and writes can change: every other field is the same
(clock, raster position, picture, sprite and background pipelines, requests, cartridge, parameters, inputs, host calls). -/
def sameButBus (s t : State) : Prop :=
  t = { s with
    cpu := t.cpu
    ppu := { s.ppu with
      nt0 := t.ppu.nt0, nt1 := t.ppu.nt1, pal := t.ppu.pal, oam := t.ppu.oam, pat := t.ppu.pat
      ctrl := t.ppu.ctrl, mask := t.ppu.mask
      status := { s.ppu.status with verticalBlank := t.ppu.status.verticalBlank }
      v := t.ppu.v, t := t.ppu.t, fineX := t.ppu.fineX, w := t.ppu.w
      dataBuffer := t.ppu.dataBuffer, oamAddr := t.ppu.oamAddr }
    bus := { s.bus with
      ram := t.bus.ram, dmaPage := t.bus.dmaPage, dmaAddr := t.bus.dmaAddr, dmaTransfer := t.bus.dmaTransfer
      ctrlShift0 := t.bus.ctrlShift0, ctrlShift1 := t.bus.ctrlShift1 } }

/-! ## Invariants -/

/-- R26 and R27: U is 1 and B is 0 in P, and `cycles` is at most 8. -/
def Cpu.Ok (c : Cpu) : Prop := c.p &&& 0x30 = 0x20 ∧ c.cycles ≤ 8

/-- The memories of the PPU are canonical and inside their sizes (R30 to R33, R49, R325), a picture element is a 6-bit index
(R49), and the four aliased palette entries are not live (R31). -/
def Ppu.MemoriesOk (p : Ppu) : Prop :=
  Memory.wfOf 1024 p.nt0 ∧ Memory.wfOf 1024 p.nt1 ∧ Memory.wfOf 32 p.pal ∧ Memory.wfOf 256 p.oam ∧
  Memory.wfOf 8192 p.pat ∧ Memory.wfOf 61440 p.frame ∧
  (∀ k, (p.frame.read k).toNat < 64) ∧
  p.pal.read 0x10 = 0 ∧ p.pal.read 0x14 = 0 ∧ p.pal.read 0x18 = 0 ∧ p.pal.read 0x1C = 0

/-- The raster counters stay in their ranges (R47). -/
def Ppu.RasterOk (p : Ppu) : Prop := -1 ≤ p.scanline ∧ p.scanline ≤ 260 ∧ p.cycle ≤ 340

/-- The sprite buffer has eight records, of which at most eight are active (R44, R361). -/
def Ppu.SpritesOk (p : Ppu) : Prop := p.spr.length = 8 ∧ p.sprCount ≤ 8

/-- While no transfer runs, the alignment delay is armed and the next transfer starts at byte 0 (R404, R405). -/
def Bus.DmaOk (b : Bus) : Prop := b.dmaTransfer = false → b.dmaDummy = true ∧ b.dmaAddr = 0

/-- System RAM is canonical and inside its 2048 bytes (R51). -/
def Bus.MemoryOk (b : Bus) : Prop := Memory.wfOf 2048 b.ram = true

/-- The inserted cartridge, if any, is validly constructed (R78). -/
def State.CartridgeOk (s : State) : Prop := ∀ c, s.cart = some c → c.wf = true

/-- Every invariant of a state of the block. -/
structure State.Ok (s : State) : Prop where
  cpu : s.cpu.Ok
  ppuMemories : s.ppu.MemoriesOk
  raster : s.ppu.RasterOk
  sprites : s.ppu.SpritesOk
  dma : s.bus.DmaOk
  ram : s.bus.MemoryOk
  cartridge : s.CartridgeOk

/-! ## Where a step goes on -/

/-- A host call the model takes in a state (R82, U11): it is no Bus tick without a cartridge, and inserts no cartridge that is not
well formed. -/
def callAllowed (c : HostCall) (s : State) : Bool :=
  !(needsCartridge c && s.cart.isNone) &&
    match c with
    | .insertCartridge cart => cart.wf
    | _ => true

/-- The next step of a state is one the model takes: the oldest waiting call, or the Bus tick when none waits, is allowed. -/
def goesOn (s : State) : Bool :=
  match s.calls with
  | [] => callAllowed .busTick s
  | c :: _ => callAllowed c s

end Sys2Proof.Machine
end

