-- ==== Sys2Proof/Certificates/Slice0/Obligations.lean ====
section
/-! DEFINITION. The statements about the model, for the provers. Each docstring names the rules of spec/ it formalises. -/

open Sys2Proof Sys2Proof.Machine

/-- O1. Decode and encode agree (R120 to R122, R86), for all instructions and operands. -/
def Obligations.DecodeInvertsEncode : Prop :=
  ∀ (i : Instr) (rest : List Byte), i.wellFormed = true → decode (encode i ++ rest) = some (i, rest)

/-- O2. R128: decoding is total and every byte sequence has one reading. -/
def Obligations.EveryByteSequenceDecodes : Prop :=
  ∀ (op b1 b2 : Byte) (more : List Byte),
    ∃ i rest, decode (op :: b1 :: b2 :: more) = some (i, rest) ∧ encode i ++ rest = op :: b1 :: b2 :: more ∧
      ∀ (j : Instr) (rest' : List Byte), encode j ++ rest' = op :: b1 :: b2 :: more → j = i

/-- O3. R124 and the "bytes" column of R129, one word for each of the thirteen modes, and the little-endian operand of
R122. -/
def Obligations.ExampleWordsDecode : Prop :=
  decode [0x18#8] = some (.clc, []) ∧
  decode [0b00001010#8] = some (.aslAcc, []) ∧
  decode [0xA9#8, 0x10] = some (.ldaImm 0x10, []) ∧
  decode [0b10100101#8, 0x10] = some (.ldaZp0 0x10, []) ∧
  decode [0xB5#8, 0x10] = some (.ldaZpx 0x10, []) ∧
  decode [0b10110110#8, 0x10] = some (.ldxZpy 0x10, []) ∧
  decode [0xAD#8, 0x34, 0x12] = some (.ldaAbs 0x1234, []) ∧
  decode [0xBD#8, 0x34, 0x12] = some (.ldaAbx 0x1234, []) ∧
  decode [0xB9#8, 0x34, 0x12] = some (.ldaAby 0x1234, []) ∧
  decode [0b01101100#8, 0x34, 0x12] = some (.jmpInd 0x1234, []) ∧
  decode [0xA1#8, 0x10] = some (.ldaIzx 0x10, []) ∧
  decode [0b10110001#8, 0x10] = some (.ldaIzy 0x10, []) ∧
  decode [0xD0#8, 0x03] = some (.bne 0x03, []) ∧
  decode [0x02#8, 0x10] = some (.ill02, [0x10])

/-- O4. R157 to R159 and R161 to R163, on the operand the decoder read. `w.toNat % 256` is the low byte of the base.
-/
def Obligations.DirectAndIndexedAddresses : Prop :=
  ∀ (b : Byte) (w : Addr) (s : State),
    resolve (.zp0 b) s = ⟨BitVec.ofNat 16 b.toNat, false, s⟩ ∧
    resolve (.zpx b) s = ⟨BitVec.ofNat 16 ((b.toNat + s.cpu.x.toNat) % 256), false, s⟩ ∧
    resolve (.zpy b) s = ⟨BitVec.ofNat 16 ((b.toNat + s.cpu.y.toNat) % 256), false, s⟩ ∧
    resolve (.abs w) s = ⟨w, false, s⟩ ∧
    resolve (.abx w) s =
      ⟨BitVec.ofNat 16 (w.toNat + s.cpu.x.toNat), decide (256 ≤ w.toNat % 256 + s.cpu.x.toNat), s⟩ ∧
    resolve (.aby w) s =
      ⟨BitVec.ofNat 16 (w.toNat + s.cpu.y.toNat), decide (256 ≤ w.toNat % 256 + s.cpu.y.toNat), s⟩

/-- O5. R164 to R166, on the operand the decoder read. -/
def Obligations.IndirectAddresses : Prop :=
  ∀ (b : Byte) (w : Addr) (s : State),
    (let lo := cpuRead s w
     let hi := cpuRead lo.2 (BitVec.ofNat 16 (w.toNat / 256 * 256 + (w.toNat + 1) % 256))
     resolve (.ind w) s = ⟨BitVec.ofNat 16 (256 * hi.1.toNat + lo.1.toNat), false, hi.2⟩) ∧
    (let lo := cpuRead s (BitVec.ofNat 16 ((b.toNat + s.cpu.x.toNat) % 256))
     let hi := cpuRead lo.2 (BitVec.ofNat 16 ((b.toNat + s.cpu.x.toNat + 1) % 256))
     resolve (.izx b) s = ⟨BitVec.ofNat 16 (256 * hi.1.toNat + lo.1.toNat), false, hi.2⟩) ∧
    (let lo := cpuRead s (BitVec.ofNat 16 b.toNat)
     let hi := cpuRead lo.2 (BitVec.ofNat 16 ((b.toNat + 1) % 256))
     resolve (.izy b) s =
       ⟨BitVec.ofNat 16 (256 * hi.1.toNat + lo.1.toNat + s.cpu.y.toNat),
        decide (256 ≤ lo.1.toNat + s.cpu.y.toNat), hi.2⟩)

/-- O6. R167 (and R155, R156); the immediate byte is read with the instruction (log entry 15). -/
def Obligations.OperandIsOneRead : Prop :=
  ∀ (b : Byte) (w : Addr) (s : State),
    fetchOperand .acc s = ⟨s.cpu.a, false, s⟩ ∧
    fetchOperand (.imm b) s = ⟨b, false, s⟩ ∧
    ∀ o ∈ ([.zp0 b, .zpx b, .zpy b, .abs w, .abx w, .aby w, .izx b, .izy b] : List Operand),
      let r := resolve o s
      fetchOperand o s = ⟨(cpuRead r.st r.ea).1, r.crossed, (cpuRead r.st r.ea).2⟩

/-- O7. R180 to R182, all forms of `ldaImm` … `ldaIzy`, `ldxImm` … `ldxAby`, `ldyImm` … `ldyAbx`. -/
def Obligations.LoadsSetRegisterAndFlags : Prop :=
  ∀ (b : Byte) (w : Addr),
    (∀ f ∈ ([⟨.ldaImm b, 0xA9, .imm b, 2⟩, ⟨.ldaZp0 b, 0xA5, .zp0 b, 3⟩, ⟨.ldaZpx b, 0xB5, .zpx b, 4⟩,
              ⟨.ldaAbs w, 0xAD, .abs w, 4⟩, ⟨.ldaAbx w, 0xBD, .abx w, 4⟩, ⟨.ldaAby w, 0xB9, .aby w, 4⟩,
              ⟨.ldaIzx b, 0xA1, .izx b, 6⟩, ⟨.ldaIzy b, 0xB1, .izy b, 5⟩] : List Form),
        f.reads fun m c => { c with a := m, p := ((statusBits c.p).zn m).byte }) ∧
    (∀ f ∈ ([⟨.ldxImm b, 0xA2, .imm b, 2⟩, ⟨.ldxZp0 b, 0xA6, .zp0 b, 3⟩, ⟨.ldxZpy b, 0xB6, .zpy b, 4⟩,
              ⟨.ldxAbs w, 0xAE, .abs w, 4⟩, ⟨.ldxAby w, 0xBE, .aby w, 4⟩] : List Form),
        f.reads fun m c => { c with x := m, p := ((statusBits c.p).zn m).byte }) ∧
    (∀ f ∈ ([⟨.ldyImm b, 0xA0, .imm b, 2⟩, ⟨.ldyZp0 b, 0xA4, .zp0 b, 3⟩, ⟨.ldyZpx b, 0xB4, .zpx b, 4⟩,
              ⟨.ldyAbs w, 0xAC, .abs w, 4⟩, ⟨.ldyAbx w, 0xBC, .abx w, 4⟩] : List Form),
        f.reads fun m c => { c with y := m, p := ((statusBits c.p).zn m).byte })

/-- O8. R183 to R185, all forms of `staZp0` … `staIzy`, `stxZp0` … `stxAbs`, `styZp0` … `styAbs`. -/
def Obligations.StoresWriteTheRegister : Prop :=
  ∀ (b : Byte) (w : Addr),
    (∀ f ∈ ([⟨.staZp0 b, 0x85, .zp0 b, 3⟩, ⟨.staZpx b, 0x95, .zpx b, 4⟩, ⟨.staAbs w, 0x8D, .abs w, 4⟩,
              ⟨.staAbx w, 0x9D, .abx w, 5⟩, ⟨.staAby w, 0x99, .aby w, 5⟩, ⟨.staIzx b, 0x81, .izx b, 6⟩,
              ⟨.staIzy b, 0x91, .izy b, 6⟩] : List Form),
        f.stores Cpu.a) ∧
    (∀ f ∈ ([⟨.stxZp0 b, 0x86, .zp0 b, 3⟩, ⟨.stxZpy b, 0x96, .zpy b, 4⟩, ⟨.stxAbs w, 0x8E, .abs w, 4⟩] : List Form),
        f.stores Cpu.x) ∧
    (∀ f ∈ ([⟨.styZp0 b, 0x84, .zp0 b, 3⟩, ⟨.styZpx b, 0x94, .zpx b, 4⟩, ⟨.styAbs w, 0x8C, .abs w, 4⟩] : List Form),
        f.stores Cpu.y)

/-- O9. R186 to R191: `tax`, `tay`, `txa`, `tya`, `tsx`, `txs`. -/
def Obligations.TransfersCopyRegisters : Prop :=
  Form.sets ⟨.tax, 0xAA, .imp, 2⟩ (fun c => { c with x := c.a, p := ((statusBits c.p).zn c.a).byte }) ∧
  Form.sets ⟨.tay, 0xA8, .imp, 2⟩ (fun c => { c with y := c.a, p := ((statusBits c.p).zn c.a).byte }) ∧
  Form.sets ⟨.txa, 0x8A, .imp, 2⟩ (fun c => { c with a := c.x, p := ((statusBits c.p).zn c.x).byte }) ∧
  Form.sets ⟨.tya, 0x98, .imp, 2⟩ (fun c => { c with a := c.y, p := ((statusBits c.p).zn c.y).byte }) ∧
  Form.sets ⟨.tsx, 0xBA, .imp, 2⟩ (fun c => { c with x := c.sp, p := ((statusBits c.p).zn c.sp).byte }) ∧
  Form.sets ⟨.txs, 0x9A, .imp, 2⟩ (fun c => { c with sp := c.x })

/-- O10. R203, R204 and the adder of R201, with V in the words of R200 ("the signed result does not fit −128..127"):
`adcImm` … `adcIzy`, `sbcImm` … `sbcIzy`. The status byte is arbitrary, so D is (R202). -/
def Obligations.AddAndSubtractWithCarry : Prop :=
  ∀ (b : Byte) (w : Addr),
    (∀ f ∈ ([⟨.adcImm b, 0x69, .imm b, 2⟩, ⟨.adcZp0 b, 0x65, .zp0 b, 3⟩, ⟨.adcZpx b, 0x75, .zpx b, 4⟩,
              ⟨.adcAbs w, 0x6D, .abs w, 4⟩, ⟨.adcAbx w, 0x7D, .abx w, 4⟩, ⟨.adcAby w, 0x79, .aby w, 4⟩,
              ⟨.adcIzx b, 0x61, .izx b, 6⟩, ⟨.adcIzy b, 0x71, .izy b, 5⟩] : List Form),
        f.reads fun m c =>
          let carry := (statusBits c.p).c.toNat
          let signed : Int := c.a.toInt + m.toInt + carry
          let r := BitVec.ofNat 8 (c.a.toNat + m.toNat + carry)
          { c with
            a := r
            p := { (statusBits c.p).zn r with
                   c := decide (255 < c.a.toNat + m.toNat + carry)
                   v := decide (signed < -128 ∨ 127 < signed) }.byte }) ∧
    (∀ f ∈ ([⟨.sbcImm b, 0xE9, .imm b, 2⟩, ⟨.sbcZp0 b, 0xE5, .zp0 b, 3⟩, ⟨.sbcZpx b, 0xF5, .zpx b, 4⟩,
              ⟨.sbcAbs w, 0xED, .abs w, 4⟩, ⟨.sbcAbx w, 0xFD, .abx w, 4⟩, ⟨.sbcAby w, 0xF9, .aby w, 4⟩,
              ⟨.sbcIzx b, 0xE1, .izx b, 6⟩, ⟨.sbcIzy b, 0xF1, .izy b, 5⟩] : List Form),
        f.reads fun m c =>
          let borrow := 1 - (statusBits c.p).c.toNat
          let signed : Int := c.a.toInt - m.toInt - borrow
          let r := BitVec.ofInt 8 ((c.a.toNat : Int) - m.toNat - borrow)
          { c with
            a := r
            p := { (statusBits c.p).zn r with
                   c := decide (m.toNat + borrow ≤ c.a.toNat)
                   v := decide (signed < -128 ∨ 127 < signed) }.byte }) ∧
    ∀ (a m : Byte) (c : Bool),
      (addBytes a m c).result.toNat = (a.toNat + m.toNat + c.toNat) % 256 ∧
      ((addBytes a m c).carry = true ↔ 255 < a.toNat + m.toNat + c.toNat) ∧
      ((addBytes a m c).overflow = true ↔ a.msb = m.msb ∧ (addBytes a m c).result.msb ≠ a.msb)

/-- O11. R205 to R207, R211: `cmpImm` … `cmpIzy`, `cpxImm` … `cpxAbs`, `cpyImm` … `cpyAbs`, `bitZp0`, `bitAbs`. -/
def Obligations.ComparesAndBitTest : Prop :=
  ∀ (b : Byte) (w : Addr),
    (∀ f ∈ ([⟨.cmpImm b, 0xC9, .imm b, 2⟩, ⟨.cmpZp0 b, 0xC5, .zp0 b, 3⟩, ⟨.cmpZpx b, 0xD5, .zpx b, 4⟩,
              ⟨.cmpAbs w, 0xCD, .abs w, 4⟩, ⟨.cmpAbx w, 0xDD, .abx w, 4⟩, ⟨.cmpAby w, 0xD9, .aby w, 4⟩,
              ⟨.cmpIzx b, 0xC1, .izx b, 6⟩, ⟨.cmpIzy b, 0xD1, .izy b, 5⟩] : List Form),
        f.reads fun m c =>
          { c with p := { (statusBits c.p).zn (c.a - m) with c := decide (m.toNat ≤ c.a.toNat) }.byte }) ∧
    (∀ f ∈ ([⟨.cpxImm b, 0xE0, .imm b, 2⟩, ⟨.cpxZp0 b, 0xE4, .zp0 b, 3⟩, ⟨.cpxAbs w, 0xEC, .abs w, 4⟩] : List Form),
        f.reads fun m c =>
          { c with p := { (statusBits c.p).zn (c.x - m) with c := decide (m.toNat ≤ c.x.toNat) }.byte }) ∧
    (∀ f ∈ ([⟨.cpyImm b, 0xC0, .imm b, 2⟩, ⟨.cpyZp0 b, 0xC4, .zp0 b, 3⟩, ⟨.cpyAbs w, 0xCC, .abs w, 4⟩] : List Form),
        f.reads fun m c =>
          { c with p := { (statusBits c.p).zn (c.y - m) with c := decide (m.toNat ≤ c.y.toNat) }.byte }) ∧
    (∀ f ∈ ([⟨.bitZp0 b, 0x24, .zp0 b, 3⟩, ⟨.bitAbs w, 0x2C, .abs w, 4⟩] : List Form),
        f.reads fun m c =>
          { c with p := { statusBits c.p with
              z := decide (c.a &&& m = 0), n := m.getLsbD 7, v := m.getLsbD 6 }.byte })

/-- O12. R208 to R210: `andImm` … `andIzy`, `oraImm` … `oraIzy`, `eorImm` … `eorIzy`. -/
def Obligations.LogicOperations : Prop :=
  ∀ (b : Byte) (w : Addr),
    (∀ f ∈ ([⟨.andImm b, 0x29, .imm b, 2⟩, ⟨.andZp0 b, 0x25, .zp0 b, 3⟩, ⟨.andZpx b, 0x35, .zpx b, 4⟩,
              ⟨.andAbs w, 0x2D, .abs w, 4⟩, ⟨.andAbx w, 0x3D, .abx w, 4⟩, ⟨.andAby w, 0x39, .aby w, 4⟩,
              ⟨.andIzx b, 0x21, .izx b, 6⟩, ⟨.andIzy b, 0x31, .izy b, 5⟩] : List Form),
        f.reads fun m c => { c with a := c.a &&& m, p := ((statusBits c.p).zn (c.a &&& m)).byte }) ∧
    (∀ f ∈ ([⟨.oraImm b, 0x09, .imm b, 2⟩, ⟨.oraZp0 b, 0x05, .zp0 b, 3⟩, ⟨.oraZpx b, 0x15, .zpx b, 4⟩,
              ⟨.oraAbs w, 0x0D, .abs w, 4⟩, ⟨.oraAbx w, 0x1D, .abx w, 4⟩, ⟨.oraAby w, 0x19, .aby w, 4⟩,
              ⟨.oraIzx b, 0x01, .izx b, 6⟩, ⟨.oraIzy b, 0x11, .izy b, 5⟩] : List Form),
        f.reads fun m c => { c with a := c.a ||| m, p := ((statusBits c.p).zn (c.a ||| m)).byte }) ∧
    (∀ f ∈ ([⟨.eorImm b, 0x49, .imm b, 2⟩, ⟨.eorZp0 b, 0x45, .zp0 b, 3⟩, ⟨.eorZpx b, 0x55, .zpx b, 4⟩,
              ⟨.eorAbs w, 0x4D, .abs w, 4⟩, ⟨.eorAbx w, 0x5D, .abx w, 4⟩, ⟨.eorAby w, 0x59, .aby w, 4⟩,
              ⟨.eorIzx b, 0x41, .izx b, 6⟩, ⟨.eorIzy b, 0x51, .izy b, 5⟩] : List Form),
        f.reads fun m c => { c with a := c.a ^^^ m, p := ((statusBits c.p).zn (c.a ^^^ m)).byte })

/-- O13. R212, R213: `incZp0` … `incAbx`, `decZp0` … `decAbx`. -/
def Obligations.IncrementAndDecrementMemory : Prop :=
  ∀ (b : Byte) (w : Addr),
    (∀ f ∈ ([⟨.incZp0 b, 0xE6, .zp0 b, 5⟩, ⟨.incZpx b, 0xF6, .zpx b, 6⟩, ⟨.incAbs w, 0xEE, .abs w, 6⟩,
              ⟨.incAbx w, 0xFE, .abx w, 7⟩] : List Form),
        f.modifies (fun m _ => m + 1) (fun m f => f.zn (m + 1))) ∧
    (∀ f ∈ ([⟨.decZp0 b, 0xC6, .zp0 b, 5⟩, ⟨.decZpx b, 0xD6, .zpx b, 6⟩, ⟨.decAbs w, 0xCE, .abs w, 6⟩,
              ⟨.decAbx w, 0xDE, .abx w, 7⟩] : List Form),
        f.modifies (fun m _ => m - 1) (fun m f => f.zn (m - 1)))

/-- O14. R214 to R217: `inx`, `iny`, `dex`, `dey`. -/
def Obligations.IncrementAndDecrementIndex : Prop :=
  Form.sets ⟨.inx, 0xE8, .imp, 2⟩ (fun c => { c with x := c.x + 1, p := ((statusBits c.p).zn (c.x + 1)).byte }) ∧
  Form.sets ⟨.iny, 0xC8, .imp, 2⟩ (fun c => { c with y := c.y + 1, p := ((statusBits c.p).zn (c.y + 1)).byte }) ∧
  Form.sets ⟨.dex, 0xCA, .imp, 2⟩ (fun c => { c with x := c.x - 1, p := ((statusBits c.p).zn (c.x - 1)).byte }) ∧
  Form.sets ⟨.dey, 0x88, .imp, 2⟩ (fun c => { c with y := c.y - 1, p := ((statusBits c.p).zn (c.y - 1)).byte })

/-- O15. R230 to R234: `aslAcc` … `aslAbx`, `lsrAcc` … `lsrAbx`, `rolAcc` … `rolAbx`, `rorAcc` … `rorAbx`. -/
def Obligations.ShiftsAndRotates : Prop :=
  ∀ (b : Byte) (w : Addr),
    let asl : Byte → Bool → Byte := fun m _ => BitVec.ofNat 8 (2 * m.toNat)
    let lsr : Byte → Bool → Byte := fun m _ => BitVec.ofNat 8 (m.toNat / 2)
    let rol : Byte → Bool → Byte := fun m c => BitVec.ofNat 8 (2 * m.toNat + c.toNat)
    let ror : Byte → Bool → Byte := fun m c => BitVec.ofNat 8 (m.toNat / 2 + 128 * c.toNat)
    let bit7 : Byte → Bool := fun m => m.getLsbD 7
    let bit0 : Byte → Bool := fun m => m.getLsbD 0
    let bits : (Byte → Bool → Byte) → (Byte → Bool) → Byte → StatusBits → StatusBits :=
      fun r out m f => { f.zn (r m f.c) with c := out m }
    let onA : (Byte → Bool → Byte) → (Byte → Bool) → Cpu → Cpu :=
      fun r out c => { c with a := r c.a (statusBits c.p).c, p := (bits r out c.a (statusBits c.p)).byte }
    Form.sets ⟨.aslAcc, 0x0A, .acc, 2⟩ (onA asl bit7) ∧
    (∀ f ∈ ([⟨.aslZp0 b, 0x06, .zp0 b, 5⟩, ⟨.aslZpx b, 0x16, .zpx b, 6⟩, ⟨.aslAbs w, 0x0E, .abs w, 6⟩,
              ⟨.aslAbx w, 0x1E, .abx w, 7⟩] : List Form),
        f.modifies asl (bits asl bit7)) ∧
    Form.sets ⟨.lsrAcc, 0x4A, .acc, 2⟩ (onA lsr bit0) ∧
    (∀ f ∈ ([⟨.lsrZp0 b, 0x46, .zp0 b, 5⟩, ⟨.lsrZpx b, 0x56, .zpx b, 6⟩, ⟨.lsrAbs w, 0x4E, .abs w, 6⟩,
              ⟨.lsrAbx w, 0x5E, .abx w, 7⟩] : List Form),
        f.modifies lsr (bits lsr bit0)) ∧
    Form.sets ⟨.rolAcc, 0x2A, .acc, 2⟩ (onA rol bit7) ∧
    (∀ f ∈ ([⟨.rolZp0 b, 0x26, .zp0 b, 5⟩, ⟨.rolZpx b, 0x36, .zpx b, 6⟩, ⟨.rolAbs w, 0x2E, .abs w, 6⟩,
              ⟨.rolAbx w, 0x3E, .abx w, 7⟩] : List Form),
        f.modifies rol (bits rol bit7)) ∧
    Form.sets ⟨.rorAcc, 0x6A, .acc, 2⟩ (onA ror bit0) ∧
    (∀ f ∈ ([⟨.rorZp0 b, 0x66, .zp0 b, 5⟩, ⟨.rorZpx b, 0x76, .zpx b, 6⟩, ⟨.rorAbs w, 0x6E, .abs w, 6⟩,
              ⟨.rorAbx w, 0x7E, .abx w, 7⟩] : List Form),
        f.modifies ror (bits ror bit0))

/-- O16. R241 to R249: `bcc`, `bcs`, `beq`, `bne`, `bmi`, `bpl`, `bvc`, `bvs`. PC is already past the branch (R160).
-/
def Obligations.BranchesFollowTheirCondition : Prop :=
  ∀ d : Byte,
    Form.branches ⟨.bcc d, 0x90, .rel d, 2⟩ d (fun f => !f.c) ∧
    Form.branches ⟨.bcs d, 0xB0, .rel d, 2⟩ d (fun f => f.c) ∧
    Form.branches ⟨.beq d, 0xF0, .rel d, 2⟩ d (fun f => f.z) ∧
    Form.branches ⟨.bne d, 0xD0, .rel d, 2⟩ d (fun f => !f.z) ∧
    Form.branches ⟨.bmi d, 0x30, .rel d, 2⟩ d (fun f => f.n) ∧
    Form.branches ⟨.bpl d, 0x10, .rel d, 2⟩ d (fun f => !f.n) ∧
    Form.branches ⟨.bvc d, 0x50, .rel d, 2⟩ d (fun f => !f.v) ∧
    Form.branches ⟨.bvs d, 0x70, .rel d, 2⟩ d (fun f => f.v)

/-- O17. R252 with R164: `jmpAbs`, `jmpInd`. -/
def Obligations.JumpsSetPc : Prop :=
  ∀ (w : Addr) (s : State),
    let lo := cpuRead s w
    let hi := cpuRead lo.2 (BitVec.ofNat 16 (w.toNat / 256 * 256 + (w.toNat + 1) % 256))
    encode (.jmpAbs w) = 0x4C :: Operand.bytes (.abs w) ∧
    exec (.jmpAbs w) s = .next { s with cpu := { s.cpu with pc := w, cycles := 3 } } ∧
    encode (.jmpInd w) = 0x6C :: Operand.bytes (.ind w) ∧
    exec (.jmpInd w) s = .next
      { hi.2 with cpu := { s.cpu with pc := BitVec.ofNat 16 (256 * hi.1.toNat + lo.1.toNat), cycles := 5 } }

/-- O18. R250, R251: `jsr`, `rts`. The stack slots are the bytes 0x0100 to 0x01FF of RAM. -/
def Obligations.CallPushesAndReturnPulls : Prop :=
  ∀ (w : Addr) (s : State),
    let ret := s.cpu.pc - 1
    let sp := s.cpu.sp
    let ram1 := s.bus.ram.write (0x100 + sp.toNat) (hiByte ret)
    let ram2 := ram1.write (0x100 + (sp - 1).toNat) (loByte ret)
    encode (.jsr w) = 0x20 :: Operand.bytes (.abs w) ∧
    exec (.jsr w) s = .next
      { s with
        cpu := { s.cpu with pc := w, sp := sp - 2, cycles := 6 }
        bus := { s.bus with ram := ram2 } } ∧
    encode .rts = [0x60] ∧
    exec .rts s = .next
      { s with cpu := { s.cpu with
          pc := word (s.bus.ram.read (0x100 + (sp + 2).toNat)) (s.bus.ram.read (0x100 + (sp + 1).toNat)) + 1
          sp := sp + 2, cycles := 6 } }

/-- O19. R250 and R251 together: the off-by-one of the push is undone, for every SP (also where it wraps). -/
def Obligations.ReturnResumesAfterCall : Prop :=
  ∀ (w : Addr) (s t u : State),
    exec (.jsr w) s = .next t → u.bus.ram = t.bus.ram → u.cpu.sp = t.cpu.sp →
      exec .rts u = .next { u with cpu := { u.cpu with pc := s.cpu.pc, sp := s.cpu.sp, cycles := 6 } }

/-- O20. R260 to R263: `pha`, `php`, `pla`, `plp`. -/
def Obligations.StackInstructions : Prop :=
  ∀ s : State,
    let sp := s.cpu.sp
    let top := s.bus.ram.read (0x100 + (sp + 1).toNat)
    encode .pha = [0x48] ∧ encode .php = [0x08] ∧ encode .pla = [0x68] ∧ encode .plp = [0x28] ∧
    exec .pha s = .next
      { s with
        cpu := { s.cpu with sp := sp - 1, cycles := 3 }
        bus := { s.bus with ram := s.bus.ram.write (0x100 + sp.toNat) s.cpu.a } } ∧
    exec .php s = .next
      { s with
        cpu := { s.cpu with sp := sp - 1, cycles := 3 }
        bus := { s.bus with
          ram := s.bus.ram.write (0x100 + sp.toNat) { statusBits s.cpu.p with b := true, u := true }.byte } } ∧
    exec .pla s = .next
      { s with cpu := { s.cpu with
          a := top, p := ((statusBits s.cpu.p).zn top).byte, sp := sp + 1, cycles := 4 } } ∧
    exec .plp s = .next
      { s with cpu := { s.cpu with
          p := { statusBits top with b := false, u := true }.byte, sp := sp + 1, cycles := 4 } }

/-- O21. R270 to R276: `clc`, `sec`, `cli`, `sei`, `clv`, `cld`, `sed`. -/
def Obligations.FlagInstructions : Prop :=
  Form.sets ⟨.clc, 0x18, .imp, 2⟩ (fun c => { c with p := { statusBits c.p with c := false }.byte }) ∧
  Form.sets ⟨.sec, 0x38, .imp, 2⟩ (fun c => { c with p := { statusBits c.p with c := true }.byte }) ∧
  Form.sets ⟨.cli, 0x58, .imp, 2⟩ (fun c => { c with p := { statusBits c.p with i := false }.byte }) ∧
  Form.sets ⟨.sei, 0x78, .imp, 2⟩ (fun c => { c with p := { statusBits c.p with i := true }.byte }) ∧
  Form.sets ⟨.clv, 0xB8, .imp, 2⟩ (fun c => { c with p := { statusBits c.p with v := false }.byte }) ∧
  Form.sets ⟨.cld, 0xD8, .imp, 2⟩ (fun c => { c with p := { statusBits c.p with d := false }.byte }) ∧
  Form.sets ⟨.sed, 0xF8, .imp, 2⟩ (fun c => { c with p := { statusBits c.p with d := true }.byte })

/-- O22. R277, R447: `brk`. PC on entry is the opcode address + 1. -/
def Obligations.BreakEntersTheHandler : Prop :=
  ∀ s : State,
    let ret := s.cpu.pc + 1
    let sp := s.cpu.sp
    let ram1 := s.bus.ram.write (0x100 + sp.toNat) (hiByte ret)
    let ram2 := ram1.write (0x100 + (sp - 1).toNat) (loByte ret)
    let ram3 := ram2.write (0x100 + (sp - 2).toNat) { statusBits s.cpu.p with b := true, u := true }.byte
    let pushed : State :=
      { s with
        cpu := { s.cpu with sp := sp - 3, p := { statusBits s.cpu.p with i := true }.byte, cycles := 7 }
        bus := { s.bus with ram := ram3 } }
    let lo := cpuRead pushed 0xFFFE
    let hi := cpuRead pushed 0xFFFF
    encode .brk = [0x00] ∧
    exec .brk s = .next { pushed with cpu := { pushed.cpu with pc := word hi.1 lo.1 } }

/-- O23. R278: `rti`. -/
def Obligations.ReturnFromInterruptRestores : Prop :=
  ∀ s : State,
    let slot (k : Byte) := s.bus.ram.read (0x100 + (s.cpu.sp + k).toNat)
    encode .rti = [0x40] ∧
    exec .rti s = .next
      { s with cpu := { s.cpu with
          p := { statusBits (slot 1) with b := false, u := true }.byte
          pc := word (slot 3) (slot 2), sp := s.cpu.sp + 3, cycles := 6 } }

/-- O24. R279, R282 and the table of R125 (`illegalForms` lists it): `nop`, `ill02` … `illFF`. -/
def Obligations.NoOperationAndIllegalOpcodes : Prop :=
  Form.sets ⟨.nop, 0xEA, .imp, 2⟩ (fun c => c) ∧ illegalForms.length = 105 ∧ ∀ f ∈ illegalForms, f.idles

/-- O25. The frame of the reading instructions. `Place` names every byte of RAM, PPU memories and cartridge. -/
def Obligations.ReadingInstructionsFrame : Prop :=
  ∀ (i : Instr) (s t : State),
    i.row.mnemonic ∈ ([.lda, .ldx, .ldy, .adc, .sbc, .cmp, .cpx, .cpy, .and, .ora, .eor, .bit] : List Mnemonic) →
    exec i s = .next t →
      (∀ l : Place, t.byteAt l = s.byteAt l) ∧ sameButReads s t ∧
      t.cpu.sp = s.cpu.sp ∧ t.cpu.pc = s.cpu.pc ∧
      (i.row.mnemonic ∉ ([.lda, .adc, .sbc, .and, .ora, .eor] : List Mnemonic) → t.cpu.a = s.cpu.a) ∧
      (i.row.mnemonic ≠ .ldx → t.cpu.x = s.cpu.x) ∧ (i.row.mnemonic ≠ .ldy → t.cpu.y = s.cpu.y) ∧
      (let f := statusBits s.cpu.p
       let g := statusBits t.cpu.p
       g.i = f.i ∧ g.d = f.d ∧ g.b = f.b ∧ g.u = f.u ∧
       (i.row.mnemonic ∉ ([.adc, .sbc, .cmp, .cpx, .cpy] : List Mnemonic) → g.c = f.c) ∧
       (i.row.mnemonic ∉ ([.adc, .sbc, .bit] : List Mnemonic) → g.v = f.v))

/-- O26. The frame of the storing instructions. -/
def Obligations.StoringInstructionsFrame : Prop :=
  ∀ (i : Instr) (s t : State),
    i.row.mnemonic ∈ ([.sta, .stx, .sty] : List Mnemonic) → exec i s = .next t →
      let r := resolve i.row.operand s
      let value := if i.row.mnemonic = .sta then s.cpu.a else if i.row.mnemonic = .stx then s.cpu.x else s.cpu.y
      (∀ l : Place, storePlace r.st r.ea ≠ some l → t.byteAt l = s.byteAt l) ∧
      (∀ l : Place, storePlace r.st r.ea = some l → t.byteAt l = value) ∧
      t.cpu = { s.cpu with cycles := t.cpu.cycles } ∧ sameButBus s t

/-- O27. The frame of the read-modify-write instructions. -/
def Obligations.ModifyingInstructionsFrame : Prop :=
  ∀ (i : Instr) (s t : State),
    i.row.mnemonic ∈ ([.inc, .dec, .asl, .lsr, .rol, .ror] : List Mnemonic) → exec i s = .next t →
      let r := resolve i.row.operand s
      let m := cpuRead r.st r.ea
      (i.row.operand ≠ .acc →
        (∀ l : Place, storePlace m.2 r.ea ≠ some l → t.byteAt l = s.byteAt l) ∧
        t.cpu.a = s.cpu.a ∧ sameButBus s t) ∧
      (i.row.operand = .acc → t = { s with cpu := t.cpu }) ∧
      t.cpu.x = s.cpu.x ∧ t.cpu.y = s.cpu.y ∧ t.cpu.sp = s.cpu.sp ∧ t.cpu.pc = s.cpu.pc ∧
      (let f := statusBits s.cpu.p
       let g := statusBits t.cpu.p
       g.i = f.i ∧ g.d = f.d ∧ g.b = f.b ∧ g.u = f.u ∧ g.v = f.v ∧
       (i.row.mnemonic ∈ ([.inc, .dec] : List Mnemonic) → g.c = f.c))

/-- O28. The frame of the stack instructions. -/
def Obligations.StackInstructionsFrame : Prop :=
  ∀ (i : Instr) (s t : State) (slots : Nat),
    (i.row.mnemonic, slots) ∈ ([(.pha, 1), (.php, 1), (.jsr, 2), (.brk, 3), (.pla, 0), (.plp, 0), (.rts, 0), (.rti, 0)] :
      List (Mnemonic × Nat)) →
    exec i s = .next t →
      (∀ l : Place, (∀ j < slots, l ≠ .ram (0x100 + (s.cpu.sp - BitVec.ofNat 8 j).toNat)) → t.byteAt l = s.byteAt l) ∧
      t = { s with cpu := t.cpu, bus := { s.bus with ram := t.bus.ram } } ∧
      t.cpu.x = s.cpu.x ∧ t.cpu.y = s.cpu.y ∧ (i.row.mnemonic ≠ .pla → t.cpu.a = s.cpu.a)

/-- O29. R20 to R25, over all 256 instructions: who may write what. B and U are rewritten by PLP and RTI (to 0 and 1).
-/
def Obligations.RegistersHaveTheseWriters : Prop :=
  ∀ (i : Instr) (s t : State), exec i s = .next t →
    let m := i.row.mnemonic
    let f := statusBits s.cpu.p
    let g := statusBits t.cpu.p
    let zn : List Mnemonic := [.lda, .ldx, .ldy, .tax, .tay, .txa, .tya, .tsx, .adc, .sbc, .cmp, .cpx, .cpy, .and, .ora,
      .eor, .bit, .inc, .dec, .inx, .iny, .dex, .dey, .asl, .lsr, .rol, .ror, .pla, .plp, .rti]
    (m ∉ ([.lda, .pla, .txa, .tya, .adc, .sbc, .and, .ora, .eor, .asl, .lsr, .rol, .ror] : List Mnemonic) →
      t.cpu.a = s.cpu.a) ∧
    (m ∉ ([.ldx, .tax, .tsx, .inx, .dex] : List Mnemonic) → t.cpu.x = s.cpu.x) ∧
    (m ∉ ([.ldy, .tay, .iny, .dey] : List Mnemonic) → t.cpu.y = s.cpu.y) ∧
    (m ∉ ([.txs, .pha, .php, .pla, .plp, .jsr, .rts, .brk, .rti] : List Mnemonic) → t.cpu.sp = s.cpu.sp) ∧
    (m ∉ ([.bcc, .bcs, .beq, .bne, .bmi, .bpl, .bvc, .bvs, .jmp, .jsr, .rts, .brk, .rti] : List Mnemonic) →
      t.cpu.pc = s.cpu.pc) ∧
    (m ∉ ([.adc, .sbc, .cmp, .cpx, .cpy, .asl, .lsr, .rol, .ror, .clc, .sec, .plp, .rti] : List Mnemonic) → g.c = f.c) ∧
    (m ∉ zn → g.z = f.z ∧ g.n = f.n) ∧
    (m ∉ ([.sei, .cli, .plp, .rti, .brk] : List Mnemonic) → g.i = f.i) ∧
    (m ∉ ([.sed, .cld, .plp, .rti] : List Mnemonic) → g.d = f.d) ∧
    (m ∉ ([.adc, .sbc, .bit, .clv, .plp, .rti] : List Mnemonic) → g.v = f.v) ∧
    (m ∉ ([.plp, .rti] : List Mnemonic) → g.b = f.b ∧ g.u = f.u)

/-- O30. R444. The vector is any address; the reads of it are ordinary CPU reads. -/
def Obligations.EntryPushesAndJumps : Prop :=
  ∀ (vector : Addr) (b : Bool) (s : State),
    let sp := s.cpu.sp
    let ram1 := s.bus.ram.write (0x100 + sp.toNat) (hiByte s.cpu.pc)
    let ram2 := ram1.write (0x100 + (sp - 1).toNat) (loByte s.cpu.pc)
    let ram3 := ram2.write (0x100 + (sp - 2).toNat) { statusBits s.cpu.p with b := b, u := true }.byte
    let pushed : State :=
      { s with
        cpu := { s.cpu with sp := sp - 3, p := { statusBits s.cpu.p with i := true }.byte }
        bus := { s.bus with ram := ram3 } }
    let lo := cpuRead pushed vector
    let hi := cpuRead lo.2 (vector + 1)
    enter vector b s = { hi.2 with cpu := { pushed.cpu with pc := word hi.1 lo.1 } }

/-- O31. R445, R446, as steps of the machine. -/
def Obligations.NmiAndIrqAreTaken : Prop :=
  ∀ (s : State) (rest : List HostCall),
    let quiet : State := { s with calls := rest }
    let nmi := enter 0xFFFA false quiet
    let irq := enter 0xFFFE false quiet
    step { s with calls := .raiseNmi :: rest } = .next { nmi with cpu := { nmi.cpu with cycles := 8 } } ∧
    step { s with calls := .raiseIrq :: rest } = .next
      (if (statusBits s.cpu.p).i then quiet else { irq with cpu := { irq.cpu with cycles := 7 } })

/-- O32. R450: entry and return are inverse, for every SP (also where it wraps). -/
def Obligations.ReturnResumesAfterEntry : Prop :=
  (∀ (vector : Addr) (b : Bool) (s u : State),
    u.bus.ram = (enter vector b s).bus.ram → u.cpu.sp = (enter vector b s).cpu.sp →
      exec .rti u = .next { u with cpu := { u.cpu with
        pc := s.cpu.pc, p := { statusBits s.cpu.p with b := false, u := true }.byte, sp := s.cpu.sp, cycles := 6 } }) ∧
  (∀ s t u : State, exec .brk s = .next t → u.bus.ram = t.bus.ram → u.cpu.sp = t.cpu.sp →
      exec .rti u = .next { u with cpu := { u.cpu with
        pc := s.cpu.pc + 1, p := { statusBits s.cpu.p with b := false, u := true }.byte, sp := s.cpu.sp, cycles := 6 } })

/-- O33. R443, R415, with the vector read of R59 and R79, and of R82 with no cartridge. -/
def Obligations.ResetLeavesThese : Prop :=
  ∀ s : State,
    let vector : Addr := match s.cart with
      | none => 0x0000
      | some c =>
        let k := if c.prgBanks = 1 then 0x3FFC else 0x7FFC
        word (c.prg.read (k + 1)) (c.prg.read k)
    let afterReset : Cpu := { a := 0, x := 0, y := 0, sp := 0xFD, pc := vector, p := 0x20, cycles := 8 }
    cpuReset s = { s with cpu := afterReset } ∧
    busReset s = { s with cpu := afterReset, bus := { s.bus with clock := 0 } }

/-- O34. R481. The blank cartridge (log entry 2) and the power-on values (log entry 4, the spec's D12) are the model's
choice. -/
def Obligations.ResetStateComesFromTheStartSequence : Prop :=
  ∃ mid : State,
    step { State.powerOn with calls := [.insertCartridge Config.blankCartridge, .busReset] } = .next mid ∧
    step mid = .next State.reset

/-- O35. R150; R27 for the bound. An instruction completes on its first tick. -/
def Obligations.InstructionOccupiesItsCount : Prop :=
  ∀ s t : State, s.cpu.cycles = 0 → exec (fetch s).1 (fetch s).2 = .next t →
    1 ≤ t.cpu.cycles ∧ t.cpu.cycles ≤ 8 ∧
    ∀ k < t.cpu.cycles, cpuTicks (k + 1) s = .next { t with cpu := { t.cpu with cycles := t.cpu.cycles - (k + 1) } }

/-- O36. A step runs the decoded instruction. `endBusTick` is spelled out in BusTickRunsInOrder. -/
def Obligations.StepRunsTheDecodedInstruction : Prop :=
  ∀ (s code : State) (n : Nat) (bytes : List Byte) (i : Instr),
    s.calls = [] → s.cart.isSome = true → s.bus.clock % 3 = 0 → s.bus.dmaTransfer = false → s.cpu.cycles = 0 →
    readCodes n (ppuTick s) = (bytes, code) → decode bytes = some (i, []) →
      step s = andThen (exec i code) fun t =>
        .next (endBusTick { t with cpu := { t.cpu with cycles := t.cpu.cycles - 1 } })

/-- O37. R400; the last clause is R402. -/
def Obligations.BusTickRunsInOrder : Prop :=
  ∀ s : State, s.calls = [] → s.cart.isSome = true →
    let p := ppuTick s
    let slot : Result :=
      if s.bus.clock % 3 = 0 then if s.bus.dmaTransfer then .next (dmaStep p) else cpuTick p else .next p
    let ending (t : State) : State :=
      let u := if t.ppu.nmiRequest then raiseNmi { t with ppu := { t.ppu with nmiRequest := false } } else t
      { u with bus := { u.bus with clock := u.bus.clock + 1 } }
    step s = andThen slot (fun t => .next (ending t)) ∧
    ∀ t : State, step s = .next t → t.ppu.nmiRequest = false ∧ t.bus.clock = s.bus.clock + 1

/-- O38. R442: nothing faults. `goesOn` says which host calls are taken (R82, log entries 11 and 16). -/
def Obligations.StepGoesOnWhenAllowed : Prop :=
  ∀ s : State, (∃ t : State, step s = .next t) ↔ goesOn s = true

/-- O39. R82 (D11). -/
def Obligations.NoCartridgeIsRefused : Prop :=
  ∀ s : State, s.cart = none →
    (s.calls = [] → step s = .refused .noCartridge) ∧
    (∀ rest, s.calls = .busTick :: rest → step s = .refused .noCartridge) ∧
    (∀ (a : Addr) (d : Byte), 0x4020 ≤ a.toNat → cpuRead s a = (0, s) ∧ cpuWrite s a d = s) ∧
    (memRead2 s 0xFFFC).1 = 0

/-- O40. R99, R313. The byte returned is a free value (log entry 10): the clause about the reply rests on that choice
of the model, and nothing is claimed of its value. -/
def Obligations.PeekChangesNothing : Prop :=
  ∀ (s : State) (rest : List HostCall) (c : HostCall),
    (∃ a, c = .cpuRead a true) ∨ (∃ port, c = .ppuRead port true) →
      ∃ (reply : HostReply) (n : Nat), step { s with calls := c :: rest } = .next
        { s with calls := rest, reply := reply, ppu := { s.ppu with freeCount := n } }

/-- O41. R71, with R77 for the unmapped rest and R79 for the cartridge; a write from 0x8000 up is claimed and changes
nothing. -/
def Obligations.CpuReadDecoding : Prop :=
  ∀ (s : State) (a : Addr),
    (∀ c, s.cart = some c → 0x8000 ≤ a.toNat →
      cpuRead s a = (c.prg.read (a.toNat % if c.prgBanks = 1 then 0x4000 else 0x8000), s) ∧
      ∀ d, cpuWrite s a d = s) ∧
    (a.toNat ≤ 0x1FFF → cpuRead s a = (s.bus.ram.read (a.toNat % 0x800), s)) ∧
    (0x2000 ≤ a.toNat → a.toNat ≤ 0x3FFF →
      let r := ppuPortRead s.cart s.params.grayMask s.ppu (BitVec.ofNat 3 a.toNat)
      cpuRead s a = (r.1, { s with ppu := r.2 })) ∧
    (a = 0x4016 → cpuRead s a =
      (if s.bus.ctrlShift0.getLsbD 7 then 1 else 0,
       { s with bus := { s.bus with ctrlShift0 := s.bus.ctrlShift0 <<< 1 } })) ∧
    (a = 0x4017 → cpuRead s a =
      (if s.bus.ctrlShift1.getLsbD 7 then 1 else 0,
       { s with bus := { s.bus with ctrlShift1 := s.bus.ctrlShift1 <<< 1 } })) ∧
    (0x4000 ≤ a.toNat → a ≠ 0x4016 → a ≠ 0x4017 → (a.toNat < 0x8000 ∨ s.cart = none) →
      cpuRead s a = (0, s) ∧ (a ≠ 0x4014 → ∀ d, cpuWrite s a d = s))

/-- O42. R72, R404, and the latch of R411. -/
def Obligations.CpuWriteDecoding : Prop :=
  ∀ (s : State) (a : Addr) (d : Byte),
    (0x8000 ≤ a.toNat → cpuWrite s a d = s) ∧
    (a.toNat ≤ 0x1FFF →
      cpuWrite s a d = { s with bus := { s.bus with ram := s.bus.ram.write (a.toNat % 0x800) d } }) ∧
    (0x2000 ≤ a.toNat → a.toNat ≤ 0x3FFF →
      cpuWrite s a d = { s with ppu := ppuPortWrite s.cart s.ppu (BitVec.ofNat 3 a.toNat) d }) ∧
    (a = 0x4014 →
      cpuWrite s a d = { s with bus := { s.bus with dmaPage := d, dmaAddr := 0, dmaTransfer := true } }) ∧
    (a = 0x4016 → cpuWrite s a d = { s with bus := { s.bus with ctrlShift0 := s.ctrlIn0 } }) ∧
    (a = 0x4017 → cpuWrite s a d = { s with bus := { s.bus with ctrlShift1 := s.ctrlIn1 } }) ∧
    (0x4000 ≤ a.toNat → a.toNat < 0x8000 → a ≠ 0x4014 → a ≠ 0x4016 → a ≠ 0x4017 → cpuWrite s a d = s)

/-- O43. R73. -/
def Obligations.RamIsMirrored : Prop :=
  ∀ (s : State) (a a' : Addr) (d : Byte), a.toNat ≤ 0x1FFF → a'.toNat ≤ 0x1FFF →
    (cpuRead (cpuWrite s a d) a').1 = if a.toNat % 0x800 = a'.toNat % 0x800 then d else (cpuRead s a').1

/-- O44. R411. -/
def Obligations.ControllersShiftOutMsbFirst : Prop :=
  ∀ (s : State) (d : Byte) (k : Nat),
    (cpuRead (afterReads 0x4016 k (cpuWrite s 0x4016 d)) 0x4016).1 =
      (if decide (k < 8) && s.ctrlIn0.getLsbD (7 - k) then 1 else 0) ∧
    (cpuRead (afterReads 0x4017 k (cpuWrite s 0x4017 d)) 0x4017).1 =
      (if decide (k < 8) && s.ctrlIn1.getLsbD (7 - k) then 1 else 0) ∧
    (cpuWrite s 0x4016 d).bus.ctrlShift1 = s.bus.ctrlShift1 ∧
    (cpuWrite s 0x4017 d).bus.ctrlShift0 = s.bus.ctrlShift0

/-- O45. R405, R406, R407 (a), (b) and (c), over real Bus ticks with the PPU running. With NMI on the stack page is
left out, because an NMI may write there (R407 (d)); a port page is, because each read of it changes what the next
gives. -/
def Obligations.DmaCopiesThePage : Prop :=
  ∀ s : State, s.cart.isSome = true → s.bus.clock % 3 = 1 →
    s.bus.dmaTransfer = true → s.bus.dmaDummy = true → s.bus.dmaAddr = 0 →
      let page := s.bus.dmaPage.toNat
      let nmiOff := s.ppu.ctrl.getLsbD 7 = false ∧ s.ppu.nmiRequest = false
      let slots := if (s.bus.clock - 1) % 2 = 0 then 513 else 514
      (∀ n < 3 * slots, ∃ t, busTicks n s = .next t ∧ t.bus.dmaTransfer = true) ∧
      ∃ t, busTicks (3 * slots) s = .next t ∧ t.bus.dmaTransfer = false ∧ t.bus.dmaDummy = true ∧
        ((page < 0x20 ∧ (page % 8 ≠ 1 ∨ nmiOff)) ∨ 0x40 ≤ page →
          ∀ k : Byte, t.ppu.oam.read k.toNat = (cpuRead s (word s.bus.dmaPage k)).1) ∧
        (nmiOff → t.cpu = s.cpu)

/-- O46. R304, R308, and R307, R312 for the other ports. -/
def Obligations.PpuPortReads : Prop :=
  ∀ (cart : Option Cartridge) (gray : BitVec 6) (p : Ppu),
    let at7 := BitVec.ofNat 16 (p.v.toNat % 0x4000)
    let fresh := ppuRead cart gray p at7
    let low5 (k : Nat) := p.dataBuffer.getLsbD k
    (∀ k < 5, (ppuPortRead cart gray p 2).1.getLsbD k = low5 k) ∧
    (ppuPortRead cart gray p 2).1.getLsbD 5 = p.status.spriteOverflow ∧
    (ppuPortRead cart gray p 2).1.getLsbD 6 = p.status.spriteZeroHit ∧
    (ppuPortRead cart gray p 2).1.getLsbD 7 = p.status.verticalBlank ∧
    (ppuPortRead cart gray p 2).2 = { p with status := { p.status with verticalBlank := false }, w := false } ∧
    ppuPortRead cart gray p 4 = (p.oam.read p.oamAddr.toNat, p) ∧
    ppuPortRead cart gray p 7 =
      (if 0x3F00 ≤ p.v.toNat % 0x4000 then fresh else p.dataBuffer,
       { p with dataBuffer := fresh
                v := BitVec.ofNat 15 (p.v.toNat + if p.ctrl.getLsbD 2 then 32 else 1) }) ∧
    ∀ port ∈ ([0, 1, 3, 5, 6] : List (BitVec 3)), ppuPortRead cart gray p port = (0, p)

/-- O47. R303, R305 to R307, R309 to R312, bit by bit. -/
def Obligations.PpuPortWrites : Prop :=
  ∀ (cart : Option Cartridge) (p : Ppu) (d : Byte),
    let port (k : BitVec 3) := ppuPortWrite cart p k d
    let bit (k : Nat) := d.getLsbD k
    port 0 = { p with ctrl := d, t := (port 0).t } ∧
    (∀ k < 15, (port 0).t.getLsbD k = if k = 10 then bit 0 else if k = 11 then bit 1 else p.t.getLsbD k) ∧
    port 1 = { p with mask := d } ∧
    port 2 = p ∧
    port 3 = { p with oamAddr := d } ∧
    port 4 = { p with oam := p.oam.write p.oamAddr.toNat d } ∧
    (p.w = false → port 5 = { p with fineX := BitVec.ofNat 3 d.toNat, t := (port 5).t, w := true } ∧
      ∀ k < 15, (port 5).t.getLsbD k = if k < 5 then bit (k + 3) else p.t.getLsbD k) ∧
    (p.w = true → port 5 = { p with t := (port 5).t, w := false } ∧
      ∀ k < 15, (port 5).t.getLsbD k =
        if 12 ≤ k then bit (k - 12) else if 5 ≤ k ∧ k < 10 then bit (k - 2) else p.t.getLsbD k) ∧
    (p.w = false → port 6 = { p with t := (port 6).t, w := true } ∧
      ∀ k < 15, (port 6).t.getLsbD k =
        if k = 14 then false else if 8 ≤ k then bit (k - 8) else p.t.getLsbD k) ∧
    (p.w = true → port 6 = { p with t := (port 6).t, v := (port 6).t, w := false } ∧
      ∀ k < 15, (port 6).t.getLsbD k = if k < 8 then bit k else p.t.getLsbD k) ∧
    port 7 = { ppuWrite cart p (BitVec.ofNat 16 (p.v.toNat % 0x4000)) d with
               v := BitVec.ofNat 15 (p.v.toNat + if p.ctrl.getLsbD 2 then 32 else 1) }

/-- O48. R80, R320, R323, R324, with R321 for writes. -/
def Obligations.NametablesAndPaletteAreMirrored : Prop :=
  ∀ (c : Cartridge) (gray : BitVec 6) (p : Ppu) (a a' : Addr) (d : Byte),
    let read (q : Ppu) (y : Addr) := ppuRead (some c) gray q y
    let after := ppuWrite (some c) p a d
    let x := a.toNat % 0x4000
    let x' := a'.toNat % 0x4000
    let bank (y : Addr) := if c.mirroring = .horizontal then y.getLsbD 11 else y.getLsbD 10
    let index (n : Nat) := if n % 4 = 0 ∧ 16 ≤ n % 32 then n % 32 - 16 else n % 32
    let mask : Byte := if p.mask.getLsbD 0 then gray.setWidth 8 else 0x3F
    (x ≤ 0x1FFF →
      read p a = (if 1 ≤ c.chrBanks then c.chr.read x else p.pat.read x) ∧ ppuRead none gray p a = p.pat.read x ∧
      after = { p with pat := p.pat.write x d }) ∧
    (0x2000 ≤ x → x ≤ 0x3EFF → read p a = (if bank a then p.nt1 else p.nt0).read (x % 0x400)) ∧
    (0x3F00 ≤ x → read p a = p.pal.read (index x) &&& mask) ∧
    read after a' =
      (if x ≤ 0x1FFF ∧ x' = x ∧ c.chrBanks = 0 then d
       else if (0x2000 ≤ x ∧ x ≤ 0x3EFF) ∧ (0x2000 ≤ x' ∧ x' ≤ 0x3EFF) ∧ bank a' = bank a ∧ x' % 0x400 = x % 0x400 then d
       else if 0x3F00 ≤ x ∧ 0x3F00 ≤ x' ∧ index x' = index x then d &&& mask
       else read p a')

/-- O49. R371, R372, for every state of the other PPU registers. -/
def Obligations.FrameCompletesEvery89342Ticks : Prop :=
  ∀ (cart : Option Cartridge) (gray : BitVec 6) (p : Ppu) (n : Nat), p.RasterOk →
    rasterIndex (ppuTicks cart gray n p) = (rasterIndex p + n) % 89342 ∧
    (ppuTicks cart gray n p).RasterOk ∧
    (p.frameComplete = false →
      ((ppuTicks cart gray n p).frameComplete = true ↔ 89342 ≤ rasterIndex p + n))

/-- O50. R342, R370. -/
def Obligations.VerticalBlankIsSetAndCleared : Prop :=
  ∀ (cart : Option Cartridge) (gray : BitVec 6) (p : Ppu),
    let q := ppuTickOf cart gray p
    let blank := p.scanline = 241 ∧ p.cycle = 1
    let clear := p.scanline = -1 ∧ p.cycle = 1
    (blank →
      q.status = { p.status with verticalBlank := true } ∧ q.nmiRequest = (p.nmiRequest || p.ctrl.getLsbD 7)) ∧
    (clear →
      q.status = { verticalBlank := false, spriteZeroHit := false, spriteOverflow := false } ∧
      q.spr = p.spr.map fun r => { r with patLo := 0, patHi := 0 }) ∧
    (¬blank → q.nmiRequest = p.nmiRequest) ∧
    (¬blank → ¬clear → q.status.verticalBlank = p.status.verticalBlank) ∧
    (¬clear →
      (p.status.spriteOverflow = true → q.status.spriteOverflow = true) ∧
      (p.status.spriteZeroHit = true → q.status.spriteZeroHit = true)) ∧
    ((∀ r ∈ p.spr, r.patLo = 0 ∧ r.patHi = 0) → p.onVisible 340 340 = false →
      (∀ r ∈ q.spr, r.patLo = 0 ∧ r.patHi = 0) ∧ (spritePixel q).px = 0)

/-- O51. The frame of R340: only ports and DMA write PPU memory (R321), and pixels are written one a tick (R368); and
the background pipeline of R343 to R350, fetch addresses as numbers. -/
def Obligations.PpuTickFrame : Prop :=
  ∀ (cart : Option Cartridge) (gray : BitVec 6) (p : Ppu),
    let q := ppuTickOf cart gray p
    let drawing := p.onVisible 1 256
    let v := p.v.toNat
    let read (a : Nat) : Byte := ppuRead cart gray p (BitVec.ofNat 16 a)
    let tileRow := (p.ctrl.getLsbD 4).toNat * 0x1000 + p.bgNextId.toNat * 16 + v / 0x1000
    let shifted (r : BitVec 16) := if p.inFetchWindow && p.mask.getLsbD 3 then 2 * r.toNat else r.toNat
    let next (r : BitVec 16) (low : Nat) := BitVec.ofNat 16 (if p.fetchSlot 0 then shifted r / 256 * 256 + low else shifted r)
    (q.nt0 = p.nt0 ∧ q.nt1 = p.nt1 ∧ q.pal = p.pal ∧ q.oam = p.oam ∧ q.pat = p.pat ∧
     q.ctrl = p.ctrl ∧ q.mask = p.mask ∧ q.t = p.t ∧ q.fineX = p.fineX ∧ q.w = p.w ∧
     q.dataBuffer = p.dataBuffer ∧ q.oamAddr = p.oamAddr) ∧
    (drawing = false → q.frame = p.frame) ∧
    (drawing = true → ∀ k : Nat, k ≠ 256 * p.scanline.toNat + (p.cycle - 1) → q.frame.read k = p.frame.read k) ∧
    q.bgNextId = (if p.fetchSlot 0 then read (0x2000 + v % 0x1000) else p.bgNextId) ∧
    q.bgNextAttr = (if p.fetchSlot 2 then
        BitVec.ofNat 2 ((read (0x23C0 + v / 0x400 % 4 * 0x400 + v / 128 % 8 * 8 + v / 4 % 8)).toNat /
          2 ^ (4 * (v / 64 % 2) + 2 * (v / 2 % 2)))
      else p.bgNextAttr) ∧
    q.bgNextLsb = (if p.fetchSlot 4 then read tileRow else p.bgNextLsb) ∧
    q.bgNextMsb = (if p.fetchSlot 6 then read (tileRow + 8) else p.bgNextMsb) ∧
    q.bgPatLo = next p.bgPatLo p.bgNextLsb.toNat ∧ q.bgPatHi = next p.bgPatHi p.bgNextMsb.toNat ∧
    q.bgAttrLo = next p.bgAttrLo (if p.bgNextAttr.getLsbD 0 then 0xFF else 0) ∧
    q.bgAttrHi = next p.bgAttrHi (if p.bgNextAttr.getLsbD 1 then 0xFF else 0)

/-- O52. R360: `evaluationLoop` is the rule's loop, turn by turn; R340 (1f) for when it runs. -/
def Obligations.SpriteEvaluationIsTheLoop : Prop :=
  (∀ (sl : Int) (p : Ppu), spriteEvaluation sl p = evaluationLoop sl p ∧ (spriteEvaluation sl p).sprCount ≤ 8) ∧
  ∀ (cart : Option Cartridge) (gray : BitVec 6) (p : Ppu),
    let q := ppuTickOf cart gray p
    let e := evaluationLoop p.scanline p
    (p.onVisible 257 257 = true →
      q.spr = e.spr ∧ q.sprCount = e.sprCount ∧ q.zeroPossible = e.zeroPossible ∧ q.status = e.status) ∧
    (p.onVisible 257 257 = false →
      q.sprCount = p.sprCount ∧ q.zeroPossible = p.zeroPossible ∧
      (q.status.spriteOverflow = true → p.status.spriteOverflow = true))

/-- O53. R345, R362, R363, R364, as numbers. `spriteAddress` answers no address outside the ranges of d (log entry 9),
and nothing is said there. -/
def Obligations.SpritePatternAddresses : Prop :=
  (∀ (p : Ppu) (s : Sprite) (sl : Int) (d : Nat), sl - s.y.toNat = d →
    let flip := s.attr.getLsbD 7
    let row := if flip then 7 - d % 8 else d % 8
    let top := s.id.toNat / 2 * 2
    (p.ctrl.getLsbD 5 = false → d ≤ 7 →
      spriteAddress p sl s = some (BitVec.ofNat 16
        ((p.ctrl.getLsbD 3).toNat * 0x1000 + s.id.toNat * 16 + row))) ∧
    (p.ctrl.getLsbD 5 = true → d ≤ 15 →
      spriteAddress p sl s = some (BitVec.ofNat 16
        (s.id.toNat % 2 * 0x1000 + (if decide (d < 8) = flip then top + 1 else top) * 16 + row)))) ∧
  ∀ (cart : Option Cartridge) (gray : BitVec 6) (p : Ppu) (i : Nat) (r : Sprite), p.spr[i]? = some r →
    let q := ppuTickOf cart gray p
    (p.onVisible 340 340 = true → ∃ lo hi : Byte,
      q.spr[i]? = some { r with patLo := lo, patHi := hi } ∧
      (p.sprCount ≤ i → lo = r.patLo ∧ hi = r.patHi) ∧
      (i < p.sprCount → ∀ a, spriteAddress p p.scanline r = some a → ∀ k < 8,
        let j := if r.attr.getLsbD 6 then 7 - k else k
        lo.getLsbD k = (ppuRead cart gray p a).getLsbD j ∧ hi.getLsbD k = (ppuRead cart gray p (a + 8)).getLsbD j)) ∧
    (¬(p.scanline = -1 ∧ p.cycle = 1) → p.onVisible 257 257 = false → p.onVisible 340 340 = false →
      q.spr[i]? = some
        (if p.inFetchWindow = true ∧ p.cycle ≤ 257 ∧ p.mask.getLsbD 4 = true ∧ i < p.sprCount then
           if r.x = 0 then
             { r with patLo := BitVec.ofNat 8 (2 * r.patLo.toNat), patHi := BitVec.ofNat 8 (2 * r.patHi.toNat) }
           else { r with x := BitVec.ofNat 8 (r.x.toNat - 1) }
         else r))

/-- O54. R352, R353, R355, and the TransferX of R354, with R340 and R343 for when they run. A field of v is its bits
as a number. -/
def Obligations.ScrollIncrementsAndTransfers : Prop :=
  (∀ p : Ppu,
    let cx (v : BitVec 15) := v.toNat % 32
    let cy (v : BitVec 15) := v.toNat / 32 % 32
    let nx (v : BitVec 15) := v.toNat / 1024 % 2
    let ny (v : BitVec 15) := v.toNat / 2048 % 2
    let fy (v : BitVec 15) := v.toNat / 4096
    let mk (cx cy nx ny fy : Nat) : BitVec 15 := BitVec.ofNat 15 (cx + 32 * cy + 1024 * nx + 2048 * ny + 4096 * fy)
    let on := p.mask.getLsbD 3 = true ∨ p.mask.getLsbD 4 = true
    (on →
      incrementScrollX p = { p with
        v := if cx p.v = 31 then mk 0 (cy p.v) (1 - nx p.v) (ny p.v) (fy p.v)
             else mk (cx p.v + 1) (cy p.v) (nx p.v) (ny p.v) (fy p.v) } ∧
      incrementScrollY p = { p with
        v := if fy p.v < 7 then mk (cx p.v) (cy p.v) (nx p.v) (ny p.v) (fy p.v + 1)
             else if cy p.v = 29 then mk (cx p.v) 0 (nx p.v) (1 - ny p.v) 0
             else if cy p.v = 31 then mk (cx p.v) 0 (nx p.v) (ny p.v) 0
             else mk (cx p.v) (cy p.v + 1) (nx p.v) (ny p.v) 0 } ∧
      transferX p = { p with v := mk (cx p.t) (cy p.v) (nx p.t) (ny p.v) (fy p.v) } ∧
      transferY p = { p with v := mk (cx p.v) (cy p.t) (nx p.v) (ny p.t) (fy p.t) }) ∧
    (¬on → incrementScrollX p = p ∧ incrementScrollY p = p ∧ transferX p = p ∧ transferY p = p)) ∧
  ∀ (cart : Option Cartridge) (gray : BitVec 6) (p : Ppu),
    let line := -1 ≤ p.scanline ∧ p.scanline ≤ 239
    (ppuTickOf cart gray p).v =
      (if line ∧ p.cycle = 256 then (incrementScrollY (incrementScrollX p)).v
       else if line ∧ p.cycle = 257 then (transferX p).v
       else if line ∧ p.cycle % 8 = 0 ∧ ((8 ≤ p.cycle ∧ p.cycle ≤ 248) ∨ p.cycle = 328 ∨ p.cycle = 336) then
         (incrementScrollX p).v
       else if p.scanline = -1 ∧ 280 ≤ p.cycle ∧ p.cycle ≤ 304 then (transferY p).v
       else p.v)

/-- O55. R356. -/
def Obligations.RenderingDisabledDrawsTheBackdrop : Prop :=
  ∀ (cart : Option Cartridge) (gray : BitVec 6) (p : Ppu), p.mask.getLsbD 3 = false → p.mask.getLsbD 4 = false →
    let q := ppuTickOf cart gray p
    let spread (b : Bool) : Byte := if b then 0xFF else 0x00
    let next (r : BitVec 16) (low : Byte) : BitVec 16 := if p.fetchSlot 0 then word (hiByte r) low else r
    q.v = p.v ∧
    q.bgPatLo = next p.bgPatLo p.bgNextLsb ∧ q.bgPatHi = next p.bgPatHi p.bgNextMsb ∧
    q.bgAttrLo = next p.bgAttrLo (spread (p.bgNextAttr.getLsbD 0)) ∧
    q.bgAttrHi = next p.bgAttrHi (spread (p.bgNextAttr.getLsbD 1)) ∧
    q.spr =
      (if p.scanline = -1 ∧ p.cycle = 1 then p.spr.map fun r => { r with patLo := 0, patHi := 0 }
       else if p.onVisible 257 257 then (evaluationLoop p.scanline p).spr
       else if p.onVisible 340 340 then (spriteFetch cart gray p.scanline p).spr
       else p.spr) ∧
    (q.status.spriteZeroHit = true → p.status.spriteZeroHit = true) ∧
    (p.onVisible 1 256 = true →
      q.frame.read (256 * p.scanline.toNat + (p.cycle - 1)) = ppuRead cart gray p 0x3F00)

/-- O56. R365 to R368, with R340 (3) for when they run. -/
def Obligations.PixelsAreResolved : Prop :=
  (∀ (cart : Option Cartridge) (gray : BitVec 6) (row cy : Nat) (p : Ppu),
    let bg := backgroundPixel p
    let fg := spritePixel p
    let q := composePixel cart gray row cy p
    let place (r : BitVec 16) := (r.getLsbD (15 - p.fineX.toNat)).toNat
    let pixel (r : Sprite) := 2 * (r.patHi.getLsbD 7).toNat + (r.patLo.getLsbD 7).toNat
    let shows (r : Sprite) := r.x = 0 ∧ pixel r ≠ 0
    let colour (pal px : Nat) := ppuRead cart gray p (BitVec.ofNat 16 (0x3F00 + 4 * pal + px))
    let left := if p.mask.getLsbD 1 = false ∧ p.mask.getLsbD 2 = false then 9 else 1
    let hit := bg.px ≠ 0 ∧ fg.px ≠ 0 ∧ p.zeroPossible = true ∧ fg.zero = true ∧ p.mask.getLsbD 3 = true ∧
      p.mask.getLsbD 4 = true ∧ left ≤ cy ∧ cy ≤ 256
    (p.mask.getLsbD 3 = true →
      bg.px.toNat = 2 * place p.bgPatHi + place p.bgPatLo ∧ bg.pal.toNat = 2 * place p.bgAttrHi + place p.bgAttrLo) ∧
    (p.mask.getLsbD 3 = false → bg.px = 0) ∧
    (p.mask.getLsbD 4 = true → ∀ (i : Nat) (r : Sprite), i < p.sprCount → p.spr[i]? = some r → shows r →
      (∀ (j : Nat) (r' : Sprite), j < i → p.spr[j]? = some r' → ¬shows r') →
        fg.px.toNat = pixel r ∧ fg.pal.toNat = r.attr.toNat % 4 + 4 ∧ fg.front = !r.attr.getLsbD 5 ∧
        (fg.zero = true ↔ i = 0)) ∧
    (p.mask.getLsbD 4 = false ∨ (∀ (i : Nat) (r : Sprite), i < p.sprCount → p.spr[i]? = some r → ¬shows r) →
      fg.px = 0) ∧
    q.frame.read (256 * row + (cy - 1)) =
      (if bg.px = 0 ∧ fg.px = 0 then colour 0 0
       else if bg.px = 0 ∨ (fg.px ≠ 0 ∧ fg.front = true) then colour fg.pal.toNat fg.px.toNat
       else colour bg.pal.toNat bg.px.toNat) ∧
    (q.status.spriteZeroHit = true ↔ p.status.spriteZeroHit = true ∨ hit) ∧
    q = { p with frame := q.frame, status := { p.status with spriteZeroHit := q.status.spriteZeroHit } }) ∧
  ∀ (cart : Option Cartridge) (gray : BitVec 6) (p : Ppu),
    let q := ppuTickOf cart gray p
    let drawn := composePixel cart gray p.scanline.toNat p.cycle { q with frame := p.frame, status := p.status }
    (p.onVisible 1 256 = true → q.frame = drawn.frame ∧ q.status = drawn.status) ∧
    (p.onVisible 1 256 = false →
      q.frame = p.frame ∧ (q.status.spriteZeroHit = true → p.status.spriteZeroHit = true))

/-- O57. The invariants hold at reset. -/
def Obligations.ResetMeetsTheInvariants : Prop :=
  State.reset.Ok

/-- O58. R26, R27, kept by every step from every such state, with the default or any other `ILLEGAL_CYCLES`. -/
def Obligations.StepKeepsTheStatusInvariant : Prop :=
  ∀ s t : State, s.cpu.Ok → step s = .next t → t.cpu.Ok

/-- O59. R325 and the widths of R30 to R33, R49, R51; the canonical form is the model's (log entry 5). -/
def Obligations.StepKeepsTheMemories : Prop :=
  ∀ s t : State, s.ppu.MemoriesOk → s.bus.MemoryOk → step s = .next t → t.ppu.MemoriesOk ∧ t.bus.MemoryOk

/-- O60. R44, R47, R361 and the flags of R404, R405 (`dma_dummy` is true whenever no transfer is running). -/
def Obligations.StepKeepsRasterSpritesAndDma : Prop :=
  ∀ s t : State, s.ppu.RasterOk → s.ppu.SpritesOk → s.bus.DmaOk → s.CartridgeOk → step s = .next t →
    t.ppu.RasterOk ∧ t.ppu.SpritesOk ∧ t.bus.DmaOk ∧ t.CartridgeOk
end

