-- ==== Sys2Proof/Laws/Memory.lean ====
section
/-! SUPPORT. The laws of a memory: what a write changes and leaves alone, and that the canonical form is kept. -/

namespace Sys2Proof.Memory

@[simp] theorem read_nil (k : Nat) : Memory.read [] k = 0 := rfl

theorem read_cons (c : Host.Cell) (m : Memory) (k : Nat) :
    Memory.read (c :: m) k = if c.1 = k then c.2 else Memory.read m k := rfl

/-- An address no cell has reads 0x00. -/
theorem read_absent (m : Memory) (k : Nat) (h : ∀ c ∈ m, c.1 ≠ k) : Memory.read m k = 0 := by
  induction m with
  | nil => rfl
  | cons c m ih =>
    rw [read_cons, if_neg (h c (by simp))]
    exact ih fun d hd => h d (by simp [hd])

theorem read_filter_same (m : Memory) (k : Nat) : Memory.read (m.filter fun c => c.1 != k) k = 0 :=
  read_absent _ _ fun c hc => by simpa using (List.mem_filter.mp hc).2

theorem read_filter_other (m : Memory) {j k : Nat} (h : j ≠ k) :
    Memory.read (m.filter fun c => c.1 != k) j = Memory.read m j := by
  induction m with
  | nil => rfl
  | cons c m ih =>
    by_cases hc : c.1 = k
    · have hj : c.1 ≠ j := fun e => h (e.symm.trans hc)
      rw [read_cons, if_neg hj, List.filter_cons_of_neg (by simpa using hc), ih]
    · rw [List.filter_cons_of_pos (by simpa using hc), read_cons, read_cons, ih]

theorem read_insertCell_same (m : Memory) (k : Nat) (b : Byte) (h : ∀ c ∈ m, c.1 ≠ k) :
    (Memory.insertCell k b m).read k = b := by
  induction m with
  | nil => simp [Memory.insertCell, read_cons]
  | cons c m ih =>
    by_cases hk : k < c.1
    · simp [Memory.insertCell, hk, read_cons]
    · simp only [Memory.insertCell, hk, if_false, read_cons]
      rw [if_neg (h c (by simp))]
      exact ih fun d hd => h d (by simp [hd])

theorem read_insertCell_other (m : Memory) {j k : Nat} (b : Byte) (h : j ≠ k) :
    (Memory.insertCell k b m).read j = Memory.read m j := by
  induction m with
  | nil => simp [Memory.insertCell, read_cons, h.symm]
  | cons c m ih =>
    by_cases hk : k < c.1
    · simp [Memory.insertCell, hk, read_cons, h.symm]
    · simp [Memory.insertCell, hk, read_cons, ih]

/-- A read of the address written gives the byte written. -/
@[simp] theorem read_write_same (m : Memory) (k : Nat) (b : Byte) : (m.write k b).read k = b := by
  unfold Memory.write
  by_cases hb : b = 0
  · simp [hb, read_filter_same]
  · simp only [hb, if_false]
    exact read_insertCell_same _ _ _ fun c hc => by simpa using (List.mem_filter.mp hc).2

/-- A write leaves every other address alone. -/
theorem read_write_other (m : Memory) {j k : Nat} (b : Byte) (h : j ≠ k) : (m.write k b).read j = Memory.read m j := by
  unfold Memory.write
  by_cases hb : b = 0
  · simp [hb, read_filter_other m h]
  · simp only [hb, if_false]
    rw [read_insertCell_other _ _ h, read_filter_other m h]

theorem read_write (m : Memory) (j k : Nat) (b : Byte) : (m.write k b).read j = if j = k then b else Memory.read m j := by
  by_cases h : j = k
  · subst h; simp
  · rw [if_neg h, read_write_other m b h]

/-! ## The canonical form -/

theorem rising_iff_pairwise (m : Memory) : m.rising = true ↔ m.Pairwise fun c d => c.1 < d.1 := by
  induction m with
  | nil => simp [Memory.rising]
  | cons c m ih =>
    cases m with
    | nil => simp [Memory.rising]
    | cons d m =>
      simp only [Memory.rising, Bool.and_eq_true, decide_eq_true_eq, ih]
      constructor
      · rintro ⟨hcd, hp⟩
        refine List.pairwise_cons.mpr ⟨fun e he => ?_, hp⟩
        rcases List.mem_cons.mp he with rfl | he
        · exact hcd
        · exact Nat.lt_trans hcd ((List.pairwise_cons.mp hp).1 e he)
      · intro hp
        exact ⟨(List.pairwise_cons.mp hp).1 d (by simp), (List.pairwise_cons.mp hp).2⟩

theorem mem_insertCell {m : Memory} {k : Nat} {b : Byte} {c : Host.Cell} :
    c ∈ Memory.insertCell k b m ↔ c = (k, b) ∨ c ∈ m := by
  induction m with
  | nil => simp [Memory.insertCell]
  | cons d m ih =>
    by_cases hk : k < d.1
    · simp [Memory.insertCell, hk]
    · simp only [Memory.insertCell, hk, if_false, List.mem_cons, ih]
      exact or_left_comm

theorem insertCell_pairwise {m : Memory} {k : Nat} {b : Byte} (hm : m.Pairwise fun c d => c.1 < d.1)
    (hk : ∀ c ∈ m, c.1 ≠ k) : (Memory.insertCell k b m).Pairwise fun c d => c.1 < d.1 := by
  induction m with
  | nil => simp [Memory.insertCell]
  | cons d m ih =>
    obtain ⟨hd, hm⟩ := List.pairwise_cons.mp hm
    have hne : d.1 ≠ k := hk d (by simp)
    by_cases hlt : k < d.1
    · simp only [Memory.insertCell, hlt, if_true]
      refine List.pairwise_cons.mpr ⟨fun e he => ?_, List.pairwise_cons.mpr ⟨hd, hm⟩⟩
      rcases List.mem_cons.mp he with rfl | he
      · exact hlt
      · exact Nat.lt_trans hlt (hd e he)
    · simp only [Memory.insertCell, hlt, if_false]
      refine List.pairwise_cons.mpr ⟨fun e he => ?_, ih hm fun c hc => hk c (by simp [hc])⟩
      rcases mem_insertCell.mp he with rfl | he
      · simp only; omega
      · exact hd e he

/-- A write keeps the canonical form. -/
theorem wf_write {m : Memory} (h : m.wf = true) (k : Nat) (b : Byte) : (m.write k b).wf = true := by
  simp only [Memory.wf, Bool.and_eq_true, rising_iff_pairwise, Memory.noZero, List.all_eq_true] at h ⊢
  have hf : (m.filter fun c => c.1 != k).Pairwise fun c d => c.1 < d.1 := h.1.filter _
  unfold Memory.write
  by_cases hb : b = 0
  · simp only [hb, if_true]
    exact ⟨hf, fun c hc => h.2 c (List.mem_filter.mp hc).1⟩
  · simp only [hb, if_false]
    refine ⟨insertCell_pairwise hf fun c hc => by simpa using (List.mem_filter.mp hc).2, fun c hc => ?_⟩
    rcases mem_insertCell.mp hc with rfl | hc
    · simpa using hb
    · exact h.2 c (List.mem_filter.mp hc).1

/-- A write inside the size keeps every cell inside it. -/
theorem below_write {m : Memory} {n k : Nat} (h : m.below n = true) (hk : k < n) (b : Byte) :
    (m.write k b).below n = true := by
  simp only [Memory.below, List.all_eq_true, decide_eq_true_eq] at h ⊢
  intro c hc
  unfold Memory.write at hc
  by_cases hb : b = 0
  · simp only [hb, if_true] at hc
    exact h c (List.mem_filter.mp hc).1
  · simp only [hb, if_false] at hc
    rcases mem_insertCell.mp hc with rfl | hc
    · exact hk
    · exact h c (List.mem_filter.mp hc).1

/-- A write inside the size keeps a memory of that size well formed. -/
theorem wfOf_write {m : Memory} {n k : Nat} (h : Memory.wfOf n m = true) (hk : k < n) (b : Byte) :
    Memory.wfOf n (m.write k b) = true := by
  simp only [Memory.wfOf, Bool.and_eq_true] at h ⊢
  exact ⟨wf_write h.1 k b, below_write h.2 hk b⟩

/-- The canonical form is canonical: memories that read alike are the same list. -/
theorem eq_of_read_eq {m n : Memory} (hm : m.wf = true) (hn : n.wf = true) (h : ∀ k, Memory.read m k = Memory.read n k) : m = n := by
  simp only [Memory.wf, Bool.and_eq_true, rising_iff_pairwise, Memory.noZero, List.all_eq_true] at hm hn
  obtain ⟨pm, zm⟩ := hm
  obtain ⟨pn, zn⟩ := hn
  induction m generalizing n with
  | nil =>
    cases n with
    | nil => rfl
    | cons d n =>
      have h0 := h d.1
      simp only [read_nil, read_cons, if_true] at h0
      exact absurd h0.symm (by simpa using zn d (by simp))
  | cons c m ih =>
    obtain ⟨hc, pm⟩ := List.pairwise_cons.mp pm
    cases n with
    | nil =>
      have h0 := h c.1
      simp only [read_nil, read_cons, if_true] at h0
      exact absurd h0 (by simpa using zm c (by simp))
    | cons d n =>
      obtain ⟨hd, pn⟩ := List.pairwise_cons.mp pn
      have absent_m : ∀ k, k ≤ c.1 → Memory.read m k = 0 := fun k hk =>
        read_absent m k fun e he => by have := hc e he; omega
      have absent_n : ∀ k, k ≤ d.1 → Memory.read n k = 0 := fun k hk =>
        read_absent n k fun e he => by have := hd e he; omega
      have same : c.1 = d.1 := by
        rcases Nat.lt_trichotomy c.1 d.1 with hlt | heq | hlt
        · have h0 := h c.1
          rw [read_cons, if_pos rfl, read_cons, if_neg (by omega), absent_n c.1 (by omega)] at h0
          exact absurd h0 (by simpa using zm c (by simp))
        · exact heq
        · have h0 := h d.1
          rw [read_cons, if_neg (by omega), read_cons, if_pos rfl, absent_m d.1 (by omega)] at h0
          exact absurd h0.symm (by simpa using zn d (by simp))
      have value : c.2 = d.2 := by simpa [read_cons, same] using h c.1
      have rest : ∀ k, Memory.read m k = Memory.read n k := fun k => by
        by_cases hk : c.1 = k
        · rw [absent_m k (by omega), absent_n k (by omega)]
        · simpa [read_cons, hk, same ▸ hk] using h k
      have := ih rest pm (fun e he => zm e (by simp [he])) pn (fun e he => zn e (by simp [he]))
      rw [this, Prod.ext same value]

end Sys2Proof.Memory
end

