-- ==== Sys2Proof/Laws/State.lean ====
section
/-! SUPPORT. One lemma per register write and field: what a write of one register leaves in every field. -/

namespace Sys2Proof.Machine

variable (s : State)

@[simp] theorem State.setA_a (b : Byte) : (s.setA b).cpu.a = b := rfl
@[simp] theorem State.setA_x (b : Byte) : (s.setA b).cpu.x = s.cpu.x := rfl
@[simp] theorem State.setA_y (b : Byte) : (s.setA b).cpu.y = s.cpu.y := rfl
@[simp] theorem State.setA_sp (b : Byte) : (s.setA b).cpu.sp = s.cpu.sp := rfl
@[simp] theorem State.setA_pc (b : Byte) : (s.setA b).cpu.pc = s.cpu.pc := rfl
@[simp] theorem State.setA_p (b : Byte) : (s.setA b).cpu.p = s.cpu.p := rfl
@[simp] theorem State.setA_cycles (b : Byte) : (s.setA b).cpu.cycles = s.cpu.cycles := rfl
@[simp] theorem State.setA_ppu (b : Byte) : (s.setA b).ppu = s.ppu := rfl
@[simp] theorem State.setA_bus (b : Byte) : (s.setA b).bus = s.bus := rfl
@[simp] theorem State.setA_cart (b : Byte) : (s.setA b).cart = s.cart := rfl
@[simp] theorem State.setA_params (b : Byte) : (s.setA b).params = s.params := rfl
@[simp] theorem State.setA_ctrlIn0 (b : Byte) : (s.setA b).ctrlIn0 = s.ctrlIn0 := rfl
@[simp] theorem State.setA_ctrlIn1 (b : Byte) : (s.setA b).ctrlIn1 = s.ctrlIn1 := rfl
@[simp] theorem State.setA_calls (b : Byte) : (s.setA b).calls = s.calls := rfl
@[simp] theorem State.setA_reply (b : Byte) : (s.setA b).reply = s.reply := rfl

@[simp] theorem State.setX_a (b : Byte) : (s.setX b).cpu.a = s.cpu.a := rfl
@[simp] theorem State.setX_x (b : Byte) : (s.setX b).cpu.x = b := rfl
@[simp] theorem State.setX_y (b : Byte) : (s.setX b).cpu.y = s.cpu.y := rfl
@[simp] theorem State.setX_sp (b : Byte) : (s.setX b).cpu.sp = s.cpu.sp := rfl
@[simp] theorem State.setX_pc (b : Byte) : (s.setX b).cpu.pc = s.cpu.pc := rfl
@[simp] theorem State.setX_p (b : Byte) : (s.setX b).cpu.p = s.cpu.p := rfl
@[simp] theorem State.setX_cycles (b : Byte) : (s.setX b).cpu.cycles = s.cpu.cycles := rfl
@[simp] theorem State.setX_ppu (b : Byte) : (s.setX b).ppu = s.ppu := rfl
@[simp] theorem State.setX_bus (b : Byte) : (s.setX b).bus = s.bus := rfl
@[simp] theorem State.setX_cart (b : Byte) : (s.setX b).cart = s.cart := rfl
@[simp] theorem State.setX_params (b : Byte) : (s.setX b).params = s.params := rfl
@[simp] theorem State.setX_ctrlIn0 (b : Byte) : (s.setX b).ctrlIn0 = s.ctrlIn0 := rfl
@[simp] theorem State.setX_ctrlIn1 (b : Byte) : (s.setX b).ctrlIn1 = s.ctrlIn1 := rfl
@[simp] theorem State.setX_calls (b : Byte) : (s.setX b).calls = s.calls := rfl
@[simp] theorem State.setX_reply (b : Byte) : (s.setX b).reply = s.reply := rfl

@[simp] theorem State.setY_a (b : Byte) : (s.setY b).cpu.a = s.cpu.a := rfl
@[simp] theorem State.setY_x (b : Byte) : (s.setY b).cpu.x = s.cpu.x := rfl
@[simp] theorem State.setY_y (b : Byte) : (s.setY b).cpu.y = b := rfl
@[simp] theorem State.setY_sp (b : Byte) : (s.setY b).cpu.sp = s.cpu.sp := rfl
@[simp] theorem State.setY_pc (b : Byte) : (s.setY b).cpu.pc = s.cpu.pc := rfl
@[simp] theorem State.setY_p (b : Byte) : (s.setY b).cpu.p = s.cpu.p := rfl
@[simp] theorem State.setY_cycles (b : Byte) : (s.setY b).cpu.cycles = s.cpu.cycles := rfl
@[simp] theorem State.setY_ppu (b : Byte) : (s.setY b).ppu = s.ppu := rfl
@[simp] theorem State.setY_bus (b : Byte) : (s.setY b).bus = s.bus := rfl
@[simp] theorem State.setY_cart (b : Byte) : (s.setY b).cart = s.cart := rfl
@[simp] theorem State.setY_params (b : Byte) : (s.setY b).params = s.params := rfl
@[simp] theorem State.setY_ctrlIn0 (b : Byte) : (s.setY b).ctrlIn0 = s.ctrlIn0 := rfl
@[simp] theorem State.setY_ctrlIn1 (b : Byte) : (s.setY b).ctrlIn1 = s.ctrlIn1 := rfl
@[simp] theorem State.setY_calls (b : Byte) : (s.setY b).calls = s.calls := rfl
@[simp] theorem State.setY_reply (b : Byte) : (s.setY b).reply = s.reply := rfl

@[simp] theorem State.setSp_a (b : Byte) : (s.setSp b).cpu.a = s.cpu.a := rfl
@[simp] theorem State.setSp_x (b : Byte) : (s.setSp b).cpu.x = s.cpu.x := rfl
@[simp] theorem State.setSp_y (b : Byte) : (s.setSp b).cpu.y = s.cpu.y := rfl
@[simp] theorem State.setSp_sp (b : Byte) : (s.setSp b).cpu.sp = b := rfl
@[simp] theorem State.setSp_pc (b : Byte) : (s.setSp b).cpu.pc = s.cpu.pc := rfl
@[simp] theorem State.setSp_p (b : Byte) : (s.setSp b).cpu.p = s.cpu.p := rfl
@[simp] theorem State.setSp_cycles (b : Byte) : (s.setSp b).cpu.cycles = s.cpu.cycles := rfl
@[simp] theorem State.setSp_ppu (b : Byte) : (s.setSp b).ppu = s.ppu := rfl
@[simp] theorem State.setSp_bus (b : Byte) : (s.setSp b).bus = s.bus := rfl
@[simp] theorem State.setSp_cart (b : Byte) : (s.setSp b).cart = s.cart := rfl
@[simp] theorem State.setSp_params (b : Byte) : (s.setSp b).params = s.params := rfl
@[simp] theorem State.setSp_ctrlIn0 (b : Byte) : (s.setSp b).ctrlIn0 = s.ctrlIn0 := rfl
@[simp] theorem State.setSp_ctrlIn1 (b : Byte) : (s.setSp b).ctrlIn1 = s.ctrlIn1 := rfl
@[simp] theorem State.setSp_calls (b : Byte) : (s.setSp b).calls = s.calls := rfl
@[simp] theorem State.setSp_reply (b : Byte) : (s.setSp b).reply = s.reply := rfl

@[simp] theorem State.setPc_a (b : Addr) : (s.setPc b).cpu.a = s.cpu.a := rfl
@[simp] theorem State.setPc_x (b : Addr) : (s.setPc b).cpu.x = s.cpu.x := rfl
@[simp] theorem State.setPc_y (b : Addr) : (s.setPc b).cpu.y = s.cpu.y := rfl
@[simp] theorem State.setPc_sp (b : Addr) : (s.setPc b).cpu.sp = s.cpu.sp := rfl
@[simp] theorem State.setPc_pc (b : Addr) : (s.setPc b).cpu.pc = b := rfl
@[simp] theorem State.setPc_p (b : Addr) : (s.setPc b).cpu.p = s.cpu.p := rfl
@[simp] theorem State.setPc_cycles (b : Addr) : (s.setPc b).cpu.cycles = s.cpu.cycles := rfl
@[simp] theorem State.setPc_ppu (b : Addr) : (s.setPc b).ppu = s.ppu := rfl
@[simp] theorem State.setPc_bus (b : Addr) : (s.setPc b).bus = s.bus := rfl
@[simp] theorem State.setPc_cart (b : Addr) : (s.setPc b).cart = s.cart := rfl
@[simp] theorem State.setPc_params (b : Addr) : (s.setPc b).params = s.params := rfl
@[simp] theorem State.setPc_ctrlIn0 (b : Addr) : (s.setPc b).ctrlIn0 = s.ctrlIn0 := rfl
@[simp] theorem State.setPc_ctrlIn1 (b : Addr) : (s.setPc b).ctrlIn1 = s.ctrlIn1 := rfl
@[simp] theorem State.setPc_calls (b : Addr) : (s.setPc b).calls = s.calls := rfl
@[simp] theorem State.setPc_reply (b : Addr) : (s.setPc b).reply = s.reply := rfl

@[simp] theorem State.setP_a (b : Byte) : (s.setP b).cpu.a = s.cpu.a := rfl
@[simp] theorem State.setP_x (b : Byte) : (s.setP b).cpu.x = s.cpu.x := rfl
@[simp] theorem State.setP_y (b : Byte) : (s.setP b).cpu.y = s.cpu.y := rfl
@[simp] theorem State.setP_sp (b : Byte) : (s.setP b).cpu.sp = s.cpu.sp := rfl
@[simp] theorem State.setP_pc (b : Byte) : (s.setP b).cpu.pc = s.cpu.pc := rfl
@[simp] theorem State.setP_p (b : Byte) : (s.setP b).cpu.p = b := rfl
@[simp] theorem State.setP_cycles (b : Byte) : (s.setP b).cpu.cycles = s.cpu.cycles := rfl
@[simp] theorem State.setP_ppu (b : Byte) : (s.setP b).ppu = s.ppu := rfl
@[simp] theorem State.setP_bus (b : Byte) : (s.setP b).bus = s.bus := rfl
@[simp] theorem State.setP_cart (b : Byte) : (s.setP b).cart = s.cart := rfl
@[simp] theorem State.setP_params (b : Byte) : (s.setP b).params = s.params := rfl
@[simp] theorem State.setP_ctrlIn0 (b : Byte) : (s.setP b).ctrlIn0 = s.ctrlIn0 := rfl
@[simp] theorem State.setP_ctrlIn1 (b : Byte) : (s.setP b).ctrlIn1 = s.ctrlIn1 := rfl
@[simp] theorem State.setP_calls (b : Byte) : (s.setP b).calls = s.calls := rfl
@[simp] theorem State.setP_reply (b : Byte) : (s.setP b).reply = s.reply := rfl

@[simp] theorem State.setCycles_a (b : Nat) : (s.setCycles b).cpu.a = s.cpu.a := rfl
@[simp] theorem State.setCycles_x (b : Nat) : (s.setCycles b).cpu.x = s.cpu.x := rfl
@[simp] theorem State.setCycles_y (b : Nat) : (s.setCycles b).cpu.y = s.cpu.y := rfl
@[simp] theorem State.setCycles_sp (b : Nat) : (s.setCycles b).cpu.sp = s.cpu.sp := rfl
@[simp] theorem State.setCycles_pc (b : Nat) : (s.setCycles b).cpu.pc = s.cpu.pc := rfl
@[simp] theorem State.setCycles_p (b : Nat) : (s.setCycles b).cpu.p = s.cpu.p := rfl
@[simp] theorem State.setCycles_cycles (b : Nat) : (s.setCycles b).cpu.cycles = b := rfl
@[simp] theorem State.setCycles_ppu (b : Nat) : (s.setCycles b).ppu = s.ppu := rfl
@[simp] theorem State.setCycles_bus (b : Nat) : (s.setCycles b).bus = s.bus := rfl
@[simp] theorem State.setCycles_cart (b : Nat) : (s.setCycles b).cart = s.cart := rfl
@[simp] theorem State.setCycles_params (b : Nat) : (s.setCycles b).params = s.params := rfl
@[simp] theorem State.setCycles_ctrlIn0 (b : Nat) : (s.setCycles b).ctrlIn0 = s.ctrlIn0 := rfl
@[simp] theorem State.setCycles_ctrlIn1 (b : Nat) : (s.setCycles b).ctrlIn1 = s.ctrlIn1 := rfl
@[simp] theorem State.setCycles_calls (b : Nat) : (s.setCycles b).calls = s.calls := rfl
@[simp] theorem State.setCycles_reply (b : Nat) : (s.setCycles b).reply = s.reply := rfl

@[simp] theorem State.setPpu_cpu (b : Ppu) : (s.setPpu b).cpu = s.cpu := rfl
@[simp] theorem State.setPpu_ppu (b : Ppu) : (s.setPpu b).ppu = b := rfl
@[simp] theorem State.setPpu_bus (b : Ppu) : (s.setPpu b).bus = s.bus := rfl
@[simp] theorem State.setPpu_cart (b : Ppu) : (s.setPpu b).cart = s.cart := rfl
@[simp] theorem State.setPpu_params (b : Ppu) : (s.setPpu b).params = s.params := rfl
@[simp] theorem State.setPpu_ctrlIn0 (b : Ppu) : (s.setPpu b).ctrlIn0 = s.ctrlIn0 := rfl
@[simp] theorem State.setPpu_ctrlIn1 (b : Ppu) : (s.setPpu b).ctrlIn1 = s.ctrlIn1 := rfl
@[simp] theorem State.setPpu_calls (b : Ppu) : (s.setPpu b).calls = s.calls := rfl
@[simp] theorem State.setPpu_reply (b : Ppu) : (s.setPpu b).reply = s.reply := rfl

@[simp] theorem State.setBus_cpu (b : Bus) : (s.setBus b).cpu = s.cpu := rfl
@[simp] theorem State.setBus_ppu (b : Bus) : (s.setBus b).ppu = s.ppu := rfl
@[simp] theorem State.setBus_bus (b : Bus) : (s.setBus b).bus = b := rfl
@[simp] theorem State.setBus_cart (b : Bus) : (s.setBus b).cart = s.cart := rfl
@[simp] theorem State.setBus_params (b : Bus) : (s.setBus b).params = s.params := rfl
@[simp] theorem State.setBus_ctrlIn0 (b : Bus) : (s.setBus b).ctrlIn0 = s.ctrlIn0 := rfl
@[simp] theorem State.setBus_ctrlIn1 (b : Bus) : (s.setBus b).ctrlIn1 = s.ctrlIn1 := rfl
@[simp] theorem State.setBus_calls (b : Bus) : (s.setBus b).calls = s.calls := rfl
@[simp] theorem State.setBus_reply (b : Bus) : (s.setBus b).reply = s.reply := rfl

@[simp] theorem State.setZN_a (v : Byte) : (s.setZN v).cpu.a = s.cpu.a := rfl
@[simp] theorem State.setZN_x (v : Byte) : (s.setZN v).cpu.x = s.cpu.x := rfl
@[simp] theorem State.setZN_y (v : Byte) : (s.setZN v).cpu.y = s.cpu.y := rfl
@[simp] theorem State.setZN_sp (v : Byte) : (s.setZN v).cpu.sp = s.cpu.sp := rfl
@[simp] theorem State.setZN_pc (v : Byte) : (s.setZN v).cpu.pc = s.cpu.pc := rfl
@[simp] theorem State.setZN_cycles (v : Byte) : (s.setZN v).cpu.cycles = s.cpu.cycles := rfl
@[simp] theorem State.setZN_ppu (v : Byte) : (s.setZN v).ppu = s.ppu := rfl
@[simp] theorem State.setZN_bus (v : Byte) : (s.setZN v).bus = s.bus := rfl
@[simp] theorem State.setZN_cart (v : Byte) : (s.setZN v).cart = s.cart := rfl
@[simp] theorem State.setZN_params (v : Byte) : (s.setZN v).params = s.params := rfl
@[simp] theorem State.setZN_ctrlIn0 (v : Byte) : (s.setZN v).ctrlIn0 = s.ctrlIn0 := rfl
@[simp] theorem State.setZN_ctrlIn1 (v : Byte) : (s.setZN v).ctrlIn1 = s.ctrlIn1 := rfl
@[simp] theorem State.setZN_calls (v : Byte) : (s.setZN v).calls = s.calls := rfl
@[simp] theorem State.setZN_reply (v : Byte) : (s.setZN v).reply = s.reply := rfl
@[simp] theorem State.setZN_p (v : Byte) : (s.setZN v).cpu.p = withZN v s.cpu.p := rfl

end Sys2Proof.Machine
end

