-- ==== Sys2Proof/Laws/Bus.lean ====
section
/-! SUPPORT. What one access of the CPU bus can change (R71, R72, R89): each operation equals its state with only the named
fields replaced, and from that one lemma per field it keeps. -/

namespace Sys2Proof.Machine

/-! ## PPU ports -/

section ports
variable (cart : Option Cartridge) (gray : BitVec 6) (p : Ppu) (port : BitVec 3) (a : Addr) (d : Byte)

/-- A port read changes the vertical-blank bit, `w`, `v` and the data buffer at most (R301). -/
theorem ppuPortRead_eq : (ppuPortRead cart gray p port).2 =
    { p with
      status := { p.status with verticalBlank := (ppuPortRead cart gray p port).2.status.verticalBlank }
      v := (ppuPortRead cart gray p port).2.v, w := (ppuPortRead cart gray p port).2.w
      dataBuffer := (ppuPortRead cart gray p port).2.dataBuffer } := by
  unfold ppuPortRead readStatusPort readDataPort
  split; · rfl
  split; · rfl
  split <;> rfl

/-- A PPU write changes one of the four PPU memories at most (R321). -/
theorem ppuWrite_eq : ppuWrite cart p a d =
    { p with nt0 := (ppuWrite cart p a d).nt0, nt1 := (ppuWrite cart p a d).nt1
             pal := (ppuWrite cart p a d).pal, pat := (ppuWrite cart p a d).pat } := by
  unfold ppuWrite
  dsimp only
  split; · rfl
  split; · rfl
  split
  · split <;> rfl
  · rfl

/-- What a port write can change (R302). -/
theorem ppuPortWrite_eq : ppuPortWrite cart p port d =
    { p with
      nt0 := (ppuPortWrite cart p port d).nt0, nt1 := (ppuPortWrite cart p port d).nt1
      pal := (ppuPortWrite cart p port d).pal, oam := (ppuPortWrite cart p port d).oam
      pat := (ppuPortWrite cart p port d).pat, ctrl := (ppuPortWrite cart p port d).ctrl
      mask := (ppuPortWrite cart p port d).mask, v := (ppuPortWrite cart p port d).v
      t := (ppuPortWrite cart p port d).t, fineX := (ppuPortWrite cart p port d).fineX
      w := (ppuPortWrite cart p port d).w, oamAddr := (ppuPortWrite cart p port d).oamAddr } := by
  unfold ppuPortWrite writeControl writeScroll writeAddress writeDataPort
  split; · rfl
  split; · rfl
  split; · rfl
  split; · rfl
  split
  · split <;> rfl
  split
  · split <;> rfl
  split
  · rw [ppuWrite_eq]
  · rfl

end ports

section fields
variable (cart : Option Cartridge) (gray : BitVec 6) (p : Ppu) (port : BitVec 3) (a : Addr) (d : Byte)

@[simp] theorem ppuPortRead_nt0 : (ppuPortRead cart gray p port).2.nt0 = p.nt0 :=
  congrArg (fun x => x.nt0) (ppuPortRead_eq cart gray p port)
@[simp] theorem ppuPortRead_nt1 : (ppuPortRead cart gray p port).2.nt1 = p.nt1 :=
  congrArg (fun x => x.nt1) (ppuPortRead_eq cart gray p port)
@[simp] theorem ppuPortRead_pal : (ppuPortRead cart gray p port).2.pal = p.pal :=
  congrArg (fun x => x.pal) (ppuPortRead_eq cart gray p port)
@[simp] theorem ppuPortRead_oam : (ppuPortRead cart gray p port).2.oam = p.oam :=
  congrArg (fun x => x.oam) (ppuPortRead_eq cart gray p port)
@[simp] theorem ppuPortRead_pat : (ppuPortRead cart gray p port).2.pat = p.pat :=
  congrArg (fun x => x.pat) (ppuPortRead_eq cart gray p port)
@[simp] theorem ppuPortRead_ctrl : (ppuPortRead cart gray p port).2.ctrl = p.ctrl :=
  congrArg (fun x => x.ctrl) (ppuPortRead_eq cart gray p port)
@[simp] theorem ppuPortRead_mask : (ppuPortRead cart gray p port).2.mask = p.mask :=
  congrArg (fun x => x.mask) (ppuPortRead_eq cart gray p port)
@[simp] theorem ppuPortRead_t : (ppuPortRead cart gray p port).2.t = p.t :=
  congrArg (fun x => x.t) (ppuPortRead_eq cart gray p port)
@[simp] theorem ppuPortRead_fineX : (ppuPortRead cart gray p port).2.fineX = p.fineX :=
  congrArg (fun x => x.fineX) (ppuPortRead_eq cart gray p port)
@[simp] theorem ppuPortRead_oamAddr : (ppuPortRead cart gray p port).2.oamAddr = p.oamAddr :=
  congrArg (fun x => x.oamAddr) (ppuPortRead_eq cart gray p port)
@[simp] theorem ppuPortRead_bgNextId : (ppuPortRead cart gray p port).2.bgNextId = p.bgNextId :=
  congrArg (fun x => x.bgNextId) (ppuPortRead_eq cart gray p port)
@[simp] theorem ppuPortRead_bgNextAttr : (ppuPortRead cart gray p port).2.bgNextAttr = p.bgNextAttr :=
  congrArg (fun x => x.bgNextAttr) (ppuPortRead_eq cart gray p port)
@[simp] theorem ppuPortRead_bgNextLsb : (ppuPortRead cart gray p port).2.bgNextLsb = p.bgNextLsb :=
  congrArg (fun x => x.bgNextLsb) (ppuPortRead_eq cart gray p port)
@[simp] theorem ppuPortRead_bgNextMsb : (ppuPortRead cart gray p port).2.bgNextMsb = p.bgNextMsb :=
  congrArg (fun x => x.bgNextMsb) (ppuPortRead_eq cart gray p port)
@[simp] theorem ppuPortRead_bgPatLo : (ppuPortRead cart gray p port).2.bgPatLo = p.bgPatLo :=
  congrArg (fun x => x.bgPatLo) (ppuPortRead_eq cart gray p port)
@[simp] theorem ppuPortRead_bgPatHi : (ppuPortRead cart gray p port).2.bgPatHi = p.bgPatHi :=
  congrArg (fun x => x.bgPatHi) (ppuPortRead_eq cart gray p port)
@[simp] theorem ppuPortRead_bgAttrLo : (ppuPortRead cart gray p port).2.bgAttrLo = p.bgAttrLo :=
  congrArg (fun x => x.bgAttrLo) (ppuPortRead_eq cart gray p port)
@[simp] theorem ppuPortRead_bgAttrHi : (ppuPortRead cart gray p port).2.bgAttrHi = p.bgAttrHi :=
  congrArg (fun x => x.bgAttrHi) (ppuPortRead_eq cart gray p port)
@[simp] theorem ppuPortRead_spr : (ppuPortRead cart gray p port).2.spr = p.spr :=
  congrArg (fun x => x.spr) (ppuPortRead_eq cart gray p port)
@[simp] theorem ppuPortRead_sprCount : (ppuPortRead cart gray p port).2.sprCount = p.sprCount :=
  congrArg (fun x => x.sprCount) (ppuPortRead_eq cart gray p port)
@[simp] theorem ppuPortRead_zeroPossible : (ppuPortRead cart gray p port).2.zeroPossible = p.zeroPossible :=
  congrArg (fun x => x.zeroPossible) (ppuPortRead_eq cart gray p port)
@[simp] theorem ppuPortRead_scanline : (ppuPortRead cart gray p port).2.scanline = p.scanline :=
  congrArg (fun x => x.scanline) (ppuPortRead_eq cart gray p port)
@[simp] theorem ppuPortRead_cycle : (ppuPortRead cart gray p port).2.cycle = p.cycle :=
  congrArg (fun x => x.cycle) (ppuPortRead_eq cart gray p port)
@[simp] theorem ppuPortRead_frameComplete : (ppuPortRead cart gray p port).2.frameComplete = p.frameComplete :=
  congrArg (fun x => x.frameComplete) (ppuPortRead_eq cart gray p port)
@[simp] theorem ppuPortRead_nmiRequest : (ppuPortRead cart gray p port).2.nmiRequest = p.nmiRequest :=
  congrArg (fun x => x.nmiRequest) (ppuPortRead_eq cart gray p port)
@[simp] theorem ppuPortRead_frame : (ppuPortRead cart gray p port).2.frame = p.frame :=
  congrArg (fun x => x.frame) (ppuPortRead_eq cart gray p port)
@[simp] theorem ppuPortRead_freeCount : (ppuPortRead cart gray p port).2.freeCount = p.freeCount :=
  congrArg (fun x => x.freeCount) (ppuPortRead_eq cart gray p port)
@[simp] theorem ppuPortRead_status_spriteZeroHit : (ppuPortRead cart gray p port).2.status.spriteZeroHit = p.status.spriteZeroHit :=
  congrArg (fun x => x.status.spriteZeroHit) (ppuPortRead_eq cart gray p port)
@[simp] theorem ppuPortRead_status_spriteOverflow : (ppuPortRead cart gray p port).2.status.spriteOverflow = p.status.spriteOverflow :=
  congrArg (fun x => x.status.spriteOverflow) (ppuPortRead_eq cart gray p port)

@[simp] theorem ppuWrite_oam : (ppuWrite cart p a d).oam = p.oam :=
  congrArg (fun x => x.oam) (ppuWrite_eq cart p a d)
@[simp] theorem ppuWrite_ctrl : (ppuWrite cart p a d).ctrl = p.ctrl :=
  congrArg (fun x => x.ctrl) (ppuWrite_eq cart p a d)
@[simp] theorem ppuWrite_mask : (ppuWrite cart p a d).mask = p.mask :=
  congrArg (fun x => x.mask) (ppuWrite_eq cart p a d)
@[simp] theorem ppuWrite_status : (ppuWrite cart p a d).status = p.status :=
  congrArg (fun x => x.status) (ppuWrite_eq cart p a d)
@[simp] theorem ppuWrite_v : (ppuWrite cart p a d).v = p.v :=
  congrArg (fun x => x.v) (ppuWrite_eq cart p a d)
@[simp] theorem ppuWrite_t : (ppuWrite cart p a d).t = p.t :=
  congrArg (fun x => x.t) (ppuWrite_eq cart p a d)
@[simp] theorem ppuWrite_fineX : (ppuWrite cart p a d).fineX = p.fineX :=
  congrArg (fun x => x.fineX) (ppuWrite_eq cart p a d)
@[simp] theorem ppuWrite_w : (ppuWrite cart p a d).w = p.w :=
  congrArg (fun x => x.w) (ppuWrite_eq cart p a d)
@[simp] theorem ppuWrite_dataBuffer : (ppuWrite cart p a d).dataBuffer = p.dataBuffer :=
  congrArg (fun x => x.dataBuffer) (ppuWrite_eq cart p a d)
@[simp] theorem ppuWrite_oamAddr : (ppuWrite cart p a d).oamAddr = p.oamAddr :=
  congrArg (fun x => x.oamAddr) (ppuWrite_eq cart p a d)
@[simp] theorem ppuWrite_bgNextId : (ppuWrite cart p a d).bgNextId = p.bgNextId :=
  congrArg (fun x => x.bgNextId) (ppuWrite_eq cart p a d)
@[simp] theorem ppuWrite_bgNextAttr : (ppuWrite cart p a d).bgNextAttr = p.bgNextAttr :=
  congrArg (fun x => x.bgNextAttr) (ppuWrite_eq cart p a d)
@[simp] theorem ppuWrite_bgNextLsb : (ppuWrite cart p a d).bgNextLsb = p.bgNextLsb :=
  congrArg (fun x => x.bgNextLsb) (ppuWrite_eq cart p a d)
@[simp] theorem ppuWrite_bgNextMsb : (ppuWrite cart p a d).bgNextMsb = p.bgNextMsb :=
  congrArg (fun x => x.bgNextMsb) (ppuWrite_eq cart p a d)
@[simp] theorem ppuWrite_bgPatLo : (ppuWrite cart p a d).bgPatLo = p.bgPatLo :=
  congrArg (fun x => x.bgPatLo) (ppuWrite_eq cart p a d)
@[simp] theorem ppuWrite_bgPatHi : (ppuWrite cart p a d).bgPatHi = p.bgPatHi :=
  congrArg (fun x => x.bgPatHi) (ppuWrite_eq cart p a d)
@[simp] theorem ppuWrite_bgAttrLo : (ppuWrite cart p a d).bgAttrLo = p.bgAttrLo :=
  congrArg (fun x => x.bgAttrLo) (ppuWrite_eq cart p a d)
@[simp] theorem ppuWrite_bgAttrHi : (ppuWrite cart p a d).bgAttrHi = p.bgAttrHi :=
  congrArg (fun x => x.bgAttrHi) (ppuWrite_eq cart p a d)
@[simp] theorem ppuWrite_spr : (ppuWrite cart p a d).spr = p.spr :=
  congrArg (fun x => x.spr) (ppuWrite_eq cart p a d)
@[simp] theorem ppuWrite_sprCount : (ppuWrite cart p a d).sprCount = p.sprCount :=
  congrArg (fun x => x.sprCount) (ppuWrite_eq cart p a d)
@[simp] theorem ppuWrite_zeroPossible : (ppuWrite cart p a d).zeroPossible = p.zeroPossible :=
  congrArg (fun x => x.zeroPossible) (ppuWrite_eq cart p a d)
@[simp] theorem ppuWrite_scanline : (ppuWrite cart p a d).scanline = p.scanline :=
  congrArg (fun x => x.scanline) (ppuWrite_eq cart p a d)
@[simp] theorem ppuWrite_cycle : (ppuWrite cart p a d).cycle = p.cycle :=
  congrArg (fun x => x.cycle) (ppuWrite_eq cart p a d)
@[simp] theorem ppuWrite_frameComplete : (ppuWrite cart p a d).frameComplete = p.frameComplete :=
  congrArg (fun x => x.frameComplete) (ppuWrite_eq cart p a d)
@[simp] theorem ppuWrite_nmiRequest : (ppuWrite cart p a d).nmiRequest = p.nmiRequest :=
  congrArg (fun x => x.nmiRequest) (ppuWrite_eq cart p a d)
@[simp] theorem ppuWrite_frame : (ppuWrite cart p a d).frame = p.frame :=
  congrArg (fun x => x.frame) (ppuWrite_eq cart p a d)
@[simp] theorem ppuWrite_freeCount : (ppuWrite cart p a d).freeCount = p.freeCount :=
  congrArg (fun x => x.freeCount) (ppuWrite_eq cart p a d)

@[simp] theorem ppuPortWrite_status : (ppuPortWrite cart p port d).status = p.status :=
  congrArg (fun x => x.status) (ppuPortWrite_eq cart p port d)
@[simp] theorem ppuPortWrite_dataBuffer : (ppuPortWrite cart p port d).dataBuffer = p.dataBuffer :=
  congrArg (fun x => x.dataBuffer) (ppuPortWrite_eq cart p port d)
@[simp] theorem ppuPortWrite_bgNextId : (ppuPortWrite cart p port d).bgNextId = p.bgNextId :=
  congrArg (fun x => x.bgNextId) (ppuPortWrite_eq cart p port d)
@[simp] theorem ppuPortWrite_bgNextAttr : (ppuPortWrite cart p port d).bgNextAttr = p.bgNextAttr :=
  congrArg (fun x => x.bgNextAttr) (ppuPortWrite_eq cart p port d)
@[simp] theorem ppuPortWrite_bgNextLsb : (ppuPortWrite cart p port d).bgNextLsb = p.bgNextLsb :=
  congrArg (fun x => x.bgNextLsb) (ppuPortWrite_eq cart p port d)
@[simp] theorem ppuPortWrite_bgNextMsb : (ppuPortWrite cart p port d).bgNextMsb = p.bgNextMsb :=
  congrArg (fun x => x.bgNextMsb) (ppuPortWrite_eq cart p port d)
@[simp] theorem ppuPortWrite_bgPatLo : (ppuPortWrite cart p port d).bgPatLo = p.bgPatLo :=
  congrArg (fun x => x.bgPatLo) (ppuPortWrite_eq cart p port d)
@[simp] theorem ppuPortWrite_bgPatHi : (ppuPortWrite cart p port d).bgPatHi = p.bgPatHi :=
  congrArg (fun x => x.bgPatHi) (ppuPortWrite_eq cart p port d)
@[simp] theorem ppuPortWrite_bgAttrLo : (ppuPortWrite cart p port d).bgAttrLo = p.bgAttrLo :=
  congrArg (fun x => x.bgAttrLo) (ppuPortWrite_eq cart p port d)
@[simp] theorem ppuPortWrite_bgAttrHi : (ppuPortWrite cart p port d).bgAttrHi = p.bgAttrHi :=
  congrArg (fun x => x.bgAttrHi) (ppuPortWrite_eq cart p port d)
@[simp] theorem ppuPortWrite_spr : (ppuPortWrite cart p port d).spr = p.spr :=
  congrArg (fun x => x.spr) (ppuPortWrite_eq cart p port d)
@[simp] theorem ppuPortWrite_sprCount : (ppuPortWrite cart p port d).sprCount = p.sprCount :=
  congrArg (fun x => x.sprCount) (ppuPortWrite_eq cart p port d)
@[simp] theorem ppuPortWrite_zeroPossible : (ppuPortWrite cart p port d).zeroPossible = p.zeroPossible :=
  congrArg (fun x => x.zeroPossible) (ppuPortWrite_eq cart p port d)
@[simp] theorem ppuPortWrite_scanline : (ppuPortWrite cart p port d).scanline = p.scanline :=
  congrArg (fun x => x.scanline) (ppuPortWrite_eq cart p port d)
@[simp] theorem ppuPortWrite_cycle : (ppuPortWrite cart p port d).cycle = p.cycle :=
  congrArg (fun x => x.cycle) (ppuPortWrite_eq cart p port d)
@[simp] theorem ppuPortWrite_frameComplete : (ppuPortWrite cart p port d).frameComplete = p.frameComplete :=
  congrArg (fun x => x.frameComplete) (ppuPortWrite_eq cart p port d)
@[simp] theorem ppuPortWrite_nmiRequest : (ppuPortWrite cart p port d).nmiRequest = p.nmiRequest :=
  congrArg (fun x => x.nmiRequest) (ppuPortWrite_eq cart p port d)
@[simp] theorem ppuPortWrite_frame : (ppuPortWrite cart p port d).frame = p.frame :=
  congrArg (fun x => x.frame) (ppuPortWrite_eq cart p port d)
@[simp] theorem ppuPortWrite_freeCount : (ppuPortWrite cart p port d).freeCount = p.freeCount :=
  congrArg (fun x => x.freeCount) (ppuPortWrite_eq cart p port d)

end fields

/-! ## A CPU read -/

section reads
variable (s : State) (a : Addr)

/-- A CPU read leaves the CPU alone. -/
@[simp] theorem cpuRead_cpu : (cpuRead s a).2.cpu = s.cpu := by
  unfold cpuRead
  split; · rfl
  split; · rfl
  split; · rfl
  split; · rfl
  split <;> rfl

/-- A CPU read changes only what R89 names. -/
theorem cpuRead_frame : sameButReads s (cpuRead s a).2 := by
  unfold sameButReads cpuRead
  split; · rfl
  split; · rfl
  split
  · exact congrArg (State.setPpu s) (ppuPortRead_eq s.cart s.params.grayMask s.ppu (a.extractLsb' 0 3))
  split; · rfl
  split <;> rfl

@[simp] theorem cpuRead_cart : (cpuRead s a).2.cart = s.cart :=
  congrArg (fun x => x.cart) (cpuRead_frame s a)
@[simp] theorem cpuRead_params : (cpuRead s a).2.params = s.params :=
  congrArg (fun x => x.params) (cpuRead_frame s a)
@[simp] theorem cpuRead_ctrlIn0 : (cpuRead s a).2.ctrlIn0 = s.ctrlIn0 :=
  congrArg (fun x => x.ctrlIn0) (cpuRead_frame s a)
@[simp] theorem cpuRead_ctrlIn1 : (cpuRead s a).2.ctrlIn1 = s.ctrlIn1 :=
  congrArg (fun x => x.ctrlIn1) (cpuRead_frame s a)
@[simp] theorem cpuRead_calls : (cpuRead s a).2.calls = s.calls :=
  congrArg (fun x => x.calls) (cpuRead_frame s a)
@[simp] theorem cpuRead_reply : (cpuRead s a).2.reply = s.reply :=
  congrArg (fun x => x.reply) (cpuRead_frame s a)
@[simp] theorem cpuRead_bus_ram : (cpuRead s a).2.bus.ram = s.bus.ram :=
  congrArg (fun x => x.bus.ram) (cpuRead_frame s a)
@[simp] theorem cpuRead_bus_clock : (cpuRead s a).2.bus.clock = s.bus.clock :=
  congrArg (fun x => x.bus.clock) (cpuRead_frame s a)
@[simp] theorem cpuRead_bus_dmaPage : (cpuRead s a).2.bus.dmaPage = s.bus.dmaPage :=
  congrArg (fun x => x.bus.dmaPage) (cpuRead_frame s a)
@[simp] theorem cpuRead_bus_dmaAddr : (cpuRead s a).2.bus.dmaAddr = s.bus.dmaAddr :=
  congrArg (fun x => x.bus.dmaAddr) (cpuRead_frame s a)
@[simp] theorem cpuRead_bus_dmaData : (cpuRead s a).2.bus.dmaData = s.bus.dmaData :=
  congrArg (fun x => x.bus.dmaData) (cpuRead_frame s a)
@[simp] theorem cpuRead_bus_dmaTransfer : (cpuRead s a).2.bus.dmaTransfer = s.bus.dmaTransfer :=
  congrArg (fun x => x.bus.dmaTransfer) (cpuRead_frame s a)
@[simp] theorem cpuRead_bus_dmaDummy : (cpuRead s a).2.bus.dmaDummy = s.bus.dmaDummy :=
  congrArg (fun x => x.bus.dmaDummy) (cpuRead_frame s a)
@[simp] theorem cpuRead_ppu_nt0 : (cpuRead s a).2.ppu.nt0 = s.ppu.nt0 :=
  congrArg (fun x => x.ppu.nt0) (cpuRead_frame s a)
@[simp] theorem cpuRead_ppu_nt1 : (cpuRead s a).2.ppu.nt1 = s.ppu.nt1 :=
  congrArg (fun x => x.ppu.nt1) (cpuRead_frame s a)
@[simp] theorem cpuRead_ppu_pal : (cpuRead s a).2.ppu.pal = s.ppu.pal :=
  congrArg (fun x => x.ppu.pal) (cpuRead_frame s a)
@[simp] theorem cpuRead_ppu_oam : (cpuRead s a).2.ppu.oam = s.ppu.oam :=
  congrArg (fun x => x.ppu.oam) (cpuRead_frame s a)
@[simp] theorem cpuRead_ppu_pat : (cpuRead s a).2.ppu.pat = s.ppu.pat :=
  congrArg (fun x => x.ppu.pat) (cpuRead_frame s a)
@[simp] theorem cpuRead_ppu_ctrl : (cpuRead s a).2.ppu.ctrl = s.ppu.ctrl :=
  congrArg (fun x => x.ppu.ctrl) (cpuRead_frame s a)
@[simp] theorem cpuRead_ppu_mask : (cpuRead s a).2.ppu.mask = s.ppu.mask :=
  congrArg (fun x => x.ppu.mask) (cpuRead_frame s a)
@[simp] theorem cpuRead_ppu_t : (cpuRead s a).2.ppu.t = s.ppu.t :=
  congrArg (fun x => x.ppu.t) (cpuRead_frame s a)
@[simp] theorem cpuRead_ppu_fineX : (cpuRead s a).2.ppu.fineX = s.ppu.fineX :=
  congrArg (fun x => x.ppu.fineX) (cpuRead_frame s a)
@[simp] theorem cpuRead_ppu_oamAddr : (cpuRead s a).2.ppu.oamAddr = s.ppu.oamAddr :=
  congrArg (fun x => x.ppu.oamAddr) (cpuRead_frame s a)
@[simp] theorem cpuRead_ppu_bgNextId : (cpuRead s a).2.ppu.bgNextId = s.ppu.bgNextId :=
  congrArg (fun x => x.ppu.bgNextId) (cpuRead_frame s a)
@[simp] theorem cpuRead_ppu_bgNextAttr : (cpuRead s a).2.ppu.bgNextAttr = s.ppu.bgNextAttr :=
  congrArg (fun x => x.ppu.bgNextAttr) (cpuRead_frame s a)
@[simp] theorem cpuRead_ppu_bgNextLsb : (cpuRead s a).2.ppu.bgNextLsb = s.ppu.bgNextLsb :=
  congrArg (fun x => x.ppu.bgNextLsb) (cpuRead_frame s a)
@[simp] theorem cpuRead_ppu_bgNextMsb : (cpuRead s a).2.ppu.bgNextMsb = s.ppu.bgNextMsb :=
  congrArg (fun x => x.ppu.bgNextMsb) (cpuRead_frame s a)
@[simp] theorem cpuRead_ppu_bgPatLo : (cpuRead s a).2.ppu.bgPatLo = s.ppu.bgPatLo :=
  congrArg (fun x => x.ppu.bgPatLo) (cpuRead_frame s a)
@[simp] theorem cpuRead_ppu_bgPatHi : (cpuRead s a).2.ppu.bgPatHi = s.ppu.bgPatHi :=
  congrArg (fun x => x.ppu.bgPatHi) (cpuRead_frame s a)
@[simp] theorem cpuRead_ppu_bgAttrLo : (cpuRead s a).2.ppu.bgAttrLo = s.ppu.bgAttrLo :=
  congrArg (fun x => x.ppu.bgAttrLo) (cpuRead_frame s a)
@[simp] theorem cpuRead_ppu_bgAttrHi : (cpuRead s a).2.ppu.bgAttrHi = s.ppu.bgAttrHi :=
  congrArg (fun x => x.ppu.bgAttrHi) (cpuRead_frame s a)
@[simp] theorem cpuRead_ppu_spr : (cpuRead s a).2.ppu.spr = s.ppu.spr :=
  congrArg (fun x => x.ppu.spr) (cpuRead_frame s a)
@[simp] theorem cpuRead_ppu_sprCount : (cpuRead s a).2.ppu.sprCount = s.ppu.sprCount :=
  congrArg (fun x => x.ppu.sprCount) (cpuRead_frame s a)
@[simp] theorem cpuRead_ppu_zeroPossible : (cpuRead s a).2.ppu.zeroPossible = s.ppu.zeroPossible :=
  congrArg (fun x => x.ppu.zeroPossible) (cpuRead_frame s a)
@[simp] theorem cpuRead_ppu_scanline : (cpuRead s a).2.ppu.scanline = s.ppu.scanline :=
  congrArg (fun x => x.ppu.scanline) (cpuRead_frame s a)
@[simp] theorem cpuRead_ppu_cycle : (cpuRead s a).2.ppu.cycle = s.ppu.cycle :=
  congrArg (fun x => x.ppu.cycle) (cpuRead_frame s a)
@[simp] theorem cpuRead_ppu_frameComplete : (cpuRead s a).2.ppu.frameComplete = s.ppu.frameComplete :=
  congrArg (fun x => x.ppu.frameComplete) (cpuRead_frame s a)
@[simp] theorem cpuRead_ppu_nmiRequest : (cpuRead s a).2.ppu.nmiRequest = s.ppu.nmiRequest :=
  congrArg (fun x => x.ppu.nmiRequest) (cpuRead_frame s a)
@[simp] theorem cpuRead_ppu_frame : (cpuRead s a).2.ppu.frame = s.ppu.frame :=
  congrArg (fun x => x.ppu.frame) (cpuRead_frame s a)
@[simp] theorem cpuRead_ppu_freeCount : (cpuRead s a).2.ppu.freeCount = s.ppu.freeCount :=
  congrArg (fun x => x.ppu.freeCount) (cpuRead_frame s a)
@[simp] theorem cpuRead_ppu_status_spriteZeroHit : (cpuRead s a).2.ppu.status.spriteZeroHit = s.ppu.status.spriteZeroHit :=
  congrArg (fun x => x.ppu.status.spriteZeroHit) (cpuRead_frame s a)
@[simp] theorem cpuRead_ppu_status_spriteOverflow : (cpuRead s a).2.ppu.status.spriteOverflow = s.ppu.status.spriteOverflow :=
  congrArg (fun x => x.ppu.status.spriteOverflow) (cpuRead_frame s a)

/-- A CPU read changes no stored byte. -/
@[simp] theorem cpuRead_byteAt (l : Place) : (cpuRead s a).2.byteAt l = s.byteAt l := by
  cases l <;> simp [State.byteAt]

end reads

/-! ## A CPU write -/

section writes
variable (s : State) (a : Addr) (d : Byte)

/-- A CPU write leaves the CPU alone. -/
@[simp] theorem cpuWrite_cpu : (cpuWrite s a d).cpu = s.cpu := by
  unfold cpuWrite
  split; · rfl
  split; · rfl
  split; · rfl
  split; · rfl
  split; · rfl
  split <;> rfl

/-- What a CPU write can change (R72). -/
theorem cpuWrite_eq : cpuWrite s a d =
    { s with
      ppu := { s.ppu with
        nt0 := (cpuWrite s a d).ppu.nt0, nt1 := (cpuWrite s a d).ppu.nt1, pal := (cpuWrite s a d).ppu.pal
        oam := (cpuWrite s a d).ppu.oam, pat := (cpuWrite s a d).ppu.pat, ctrl := (cpuWrite s a d).ppu.ctrl
        mask := (cpuWrite s a d).ppu.mask, v := (cpuWrite s a d).ppu.v, t := (cpuWrite s a d).ppu.t
        fineX := (cpuWrite s a d).ppu.fineX, w := (cpuWrite s a d).ppu.w, oamAddr := (cpuWrite s a d).ppu.oamAddr }
      bus := { s.bus with
        ram := (cpuWrite s a d).bus.ram, dmaPage := (cpuWrite s a d).bus.dmaPage
        dmaAddr := (cpuWrite s a d).bus.dmaAddr, dmaTransfer := (cpuWrite s a d).bus.dmaTransfer
        ctrlShift0 := (cpuWrite s a d).bus.ctrlShift0, ctrlShift1 := (cpuWrite s a d).bus.ctrlShift1 } } := by
  unfold cpuWrite
  split; · rfl
  split; · rfl
  split
  · exact congrArg (State.setPpu s) (ppuPortWrite_eq s.cart s.ppu (a.extractLsb' 0 3) d)
  split; · rfl
  split; · rfl
  split <;> rfl

@[simp] theorem cpuWrite_cart : (cpuWrite s a d).cart = s.cart :=
  congrArg (fun x => x.cart) (cpuWrite_eq s a d)
@[simp] theorem cpuWrite_params : (cpuWrite s a d).params = s.params :=
  congrArg (fun x => x.params) (cpuWrite_eq s a d)
@[simp] theorem cpuWrite_ctrlIn0 : (cpuWrite s a d).ctrlIn0 = s.ctrlIn0 :=
  congrArg (fun x => x.ctrlIn0) (cpuWrite_eq s a d)
@[simp] theorem cpuWrite_ctrlIn1 : (cpuWrite s a d).ctrlIn1 = s.ctrlIn1 :=
  congrArg (fun x => x.ctrlIn1) (cpuWrite_eq s a d)
@[simp] theorem cpuWrite_calls : (cpuWrite s a d).calls = s.calls :=
  congrArg (fun x => x.calls) (cpuWrite_eq s a d)
@[simp] theorem cpuWrite_reply : (cpuWrite s a d).reply = s.reply :=
  congrArg (fun x => x.reply) (cpuWrite_eq s a d)
@[simp] theorem cpuWrite_bus_clock : (cpuWrite s a d).bus.clock = s.bus.clock :=
  congrArg (fun x => x.bus.clock) (cpuWrite_eq s a d)
@[simp] theorem cpuWrite_bus_dmaData : (cpuWrite s a d).bus.dmaData = s.bus.dmaData :=
  congrArg (fun x => x.bus.dmaData) (cpuWrite_eq s a d)
@[simp] theorem cpuWrite_bus_dmaDummy : (cpuWrite s a d).bus.dmaDummy = s.bus.dmaDummy :=
  congrArg (fun x => x.bus.dmaDummy) (cpuWrite_eq s a d)
@[simp] theorem cpuWrite_ppu_status : (cpuWrite s a d).ppu.status = s.ppu.status :=
  congrArg (fun x => x.ppu.status) (cpuWrite_eq s a d)
@[simp] theorem cpuWrite_ppu_dataBuffer : (cpuWrite s a d).ppu.dataBuffer = s.ppu.dataBuffer :=
  congrArg (fun x => x.ppu.dataBuffer) (cpuWrite_eq s a d)
@[simp] theorem cpuWrite_ppu_bgNextId : (cpuWrite s a d).ppu.bgNextId = s.ppu.bgNextId :=
  congrArg (fun x => x.ppu.bgNextId) (cpuWrite_eq s a d)
@[simp] theorem cpuWrite_ppu_bgNextAttr : (cpuWrite s a d).ppu.bgNextAttr = s.ppu.bgNextAttr :=
  congrArg (fun x => x.ppu.bgNextAttr) (cpuWrite_eq s a d)
@[simp] theorem cpuWrite_ppu_bgNextLsb : (cpuWrite s a d).ppu.bgNextLsb = s.ppu.bgNextLsb :=
  congrArg (fun x => x.ppu.bgNextLsb) (cpuWrite_eq s a d)
@[simp] theorem cpuWrite_ppu_bgNextMsb : (cpuWrite s a d).ppu.bgNextMsb = s.ppu.bgNextMsb :=
  congrArg (fun x => x.ppu.bgNextMsb) (cpuWrite_eq s a d)
@[simp] theorem cpuWrite_ppu_bgPatLo : (cpuWrite s a d).ppu.bgPatLo = s.ppu.bgPatLo :=
  congrArg (fun x => x.ppu.bgPatLo) (cpuWrite_eq s a d)
@[simp] theorem cpuWrite_ppu_bgPatHi : (cpuWrite s a d).ppu.bgPatHi = s.ppu.bgPatHi :=
  congrArg (fun x => x.ppu.bgPatHi) (cpuWrite_eq s a d)
@[simp] theorem cpuWrite_ppu_bgAttrLo : (cpuWrite s a d).ppu.bgAttrLo = s.ppu.bgAttrLo :=
  congrArg (fun x => x.ppu.bgAttrLo) (cpuWrite_eq s a d)
@[simp] theorem cpuWrite_ppu_bgAttrHi : (cpuWrite s a d).ppu.bgAttrHi = s.ppu.bgAttrHi :=
  congrArg (fun x => x.ppu.bgAttrHi) (cpuWrite_eq s a d)
@[simp] theorem cpuWrite_ppu_spr : (cpuWrite s a d).ppu.spr = s.ppu.spr :=
  congrArg (fun x => x.ppu.spr) (cpuWrite_eq s a d)
@[simp] theorem cpuWrite_ppu_sprCount : (cpuWrite s a d).ppu.sprCount = s.ppu.sprCount :=
  congrArg (fun x => x.ppu.sprCount) (cpuWrite_eq s a d)
@[simp] theorem cpuWrite_ppu_zeroPossible : (cpuWrite s a d).ppu.zeroPossible = s.ppu.zeroPossible :=
  congrArg (fun x => x.ppu.zeroPossible) (cpuWrite_eq s a d)
@[simp] theorem cpuWrite_ppu_scanline : (cpuWrite s a d).ppu.scanline = s.ppu.scanline :=
  congrArg (fun x => x.ppu.scanline) (cpuWrite_eq s a d)
@[simp] theorem cpuWrite_ppu_cycle : (cpuWrite s a d).ppu.cycle = s.ppu.cycle :=
  congrArg (fun x => x.ppu.cycle) (cpuWrite_eq s a d)
@[simp] theorem cpuWrite_ppu_frameComplete : (cpuWrite s a d).ppu.frameComplete = s.ppu.frameComplete :=
  congrArg (fun x => x.ppu.frameComplete) (cpuWrite_eq s a d)
@[simp] theorem cpuWrite_ppu_nmiRequest : (cpuWrite s a d).ppu.nmiRequest = s.ppu.nmiRequest :=
  congrArg (fun x => x.ppu.nmiRequest) (cpuWrite_eq s a d)
@[simp] theorem cpuWrite_ppu_frame : (cpuWrite s a d).ppu.frame = s.ppu.frame :=
  congrArg (fun x => x.ppu.frame) (cpuWrite_eq s a d)
@[simp] theorem cpuWrite_ppu_freeCount : (cpuWrite s a d).ppu.freeCount = s.ppu.freeCount :=
  congrArg (fun x => x.ppu.freeCount) (cpuWrite_eq s a d)

end writes

end Sys2Proof.Machine
end

