-- ==== Sys2Proof/Laws/Address.lean ====
section
/-! SUPPORT. Masked addresses as numbers, and which arm of the CPU and PPU address decoders an address takes. -/

namespace Sys2Proof

/-- The offset in the PRG image as a remainder (R79). -/
theorem Cartridge.prgOffset_eq (c : Cartridge) (a : Addr) :
    c.prgOffset a = a.toNat % if c.prgBanks = 1 then 0x4000 else 0x8000 := by
  have m1 : (a &&& 0x3FFF).toNat = a.toNat % 0x4000 := by
    rw [BitVec.toNat_and]; exact Nat.and_two_pow_sub_one_eq_mod a.toNat 14
  have m2 : (a &&& 0x7FFF).toNat = a.toNat % 0x8000 := by
    rw [BitVec.toNat_and]; exact Nat.and_two_pow_sub_one_eq_mod a.toNat 15
  unfold Cartridge.prgOffset
  split <;> assumption

/-- A cartridge does not claim a PPU read above the pattern tables (R80). -/
theorem Cartridge.ppuRead_above (c : Cartridge) {n : Nat} (h : 0x2000 ≤ n) : c.ppuRead n = none := by
  unfold Cartridge.ppuRead
  rw [if_neg (by omega)]

namespace Machine

/-- The port of a PPU register address (R71). -/
theorem port_eq (a : Addr) : a.extractLsb' 0 3 = BitVec.ofNat 3 a.toNat := by
  apply BitVec.eq_of_toNat_eq
  simp

/-- The mirror of a RAM address (R73). -/
theorem ramOffset_eq (a : Addr) : (a &&& 0x07FF).toNat = a.toNat % 0x800 := by
  rw [BitVec.toNat_and]
  exact Nat.and_two_pow_sub_one_eq_mod a.toNat 11

/-- Below 0x8000, or with no cartridge, no cartridge claims a CPU read. -/
theorem cpuRead_unclaimed (s : State) {a : Addr} (h : a.toNat < 0x8000 ∨ s.cart = none) :
    (s.cart.bind fun c => c.cpuRead a) = none := by
  rcases h with h | h
  · cases s.cart with
    | none => rfl
    | some c =>
      show c.cpuRead a = none
      unfold Cartridge.cpuRead
      rw [if_neg (by omega)]
  · rw [h]
    rfl

/-- Below 0x8000 no cartridge claims a CPU write. -/
theorem cpuWrite_unclaimed (s : State) {a : Addr} (h : a.toNat < 0x8000) :
    (s.cart.any fun c => c.cpuWriteClaims a) = false := by
  cases s.cart with
  | none => rfl
  | some c =>
    show c.cpuWriteClaims a = false
    unfold Cartridge.cpuWriteClaims
    simp
    omega

/-- A write above the controller ports changes nothing (R72, R79). -/
theorem cpuWrite_above (s : State) {a : Addr} (d : Byte) (h : 0x4018 ≤ a.toNat) : cpuWrite s a d = s := by
  have h0 : a ≠ 0x4014 := by rintro rfl; simp at h
  have h1 : a ≠ 0x4016 := by rintro rfl; simp at h
  have h2 : a ≠ 0x4017 := by rintro rfl; simp at h
  have h3 : ¬a.toNat ≤ 0x1FFF := by omega
  have h4 : ¬a.toNat ≤ 0x3FFF := by omega
  unfold cpuWrite
  simp only [h0, h1, h2, h3, h4, if_false]
  split <;> rfl

/-- A PPU address as a number (R320). -/
theorem ppuAddress_toNat (a : Addr) : (a.setWidth 14 : BitVec 14).toNat = a.toNat % 0x4000 := by simp

/-- The offset in a nametable bank (R323). -/
theorem nametableOffset_eq (a : BitVec 14) : (a &&& 0x03FF).toNat = a.toNat % 0x400 := by
  rw [BitVec.toNat_and]
  exact Nat.and_two_pow_sub_one_eq_mod a.toNat 10

/-- `PalIndex` as arithmetic (R324). -/
theorem palIndex_eq (a : Addr) :
    palIndex (a.setWidth 14) =
      if a.toNat % 4 = 0 ∧ 16 ≤ a.toNat % 32 then a.toNat % 32 - 16 else a.toNat % 32 := by
  have e : ((a.setWidth 14 : BitVec 14) &&& 0x1F).toNat = a.toNat % 32 := by
    have e : ((a.setWidth 14 : BitVec 14) &&& 0x1F).toNat = (a.setWidth 14 : BitVec 14).toNat % 32 := by
      rw [BitVec.toNat_and]
      exact Nat.and_two_pow_sub_one_eq_mod _ 5
    rw [e, ppuAddress_toNat]
    omega
  unfold palIndex
  dsimp only
  rw [e]
  split <;> split <;> omega

/-- The data port's address as a number (R308). -/
theorem dataAddress_eq (p : Ppu) : dataAddress p = BitVec.ofNat 16 (p.v.toNat % 0x4000) := by
  unfold dataAddress
  apply BitVec.eq_of_toNat_eq
  have e : (p.v.setWidth 16 &&& 0x3FFF).toNat = (p.v.setWidth 16).toNat % 0x4000 := by
    rw [BitVec.toNat_and]
    exact Nat.and_two_pow_sub_one_eq_mod _ 14
  rw [e]
  simp
  omega

/-- The auto-increment as arithmetic (R308, R309). -/
theorem advanceV_eq (p : Ppu) : advanceV p = BitVec.ofNat 15 (p.v.toNat + if p.ctrl.getLsbD 2 then 32 else 1) := by
  unfold advanceV
  apply BitVec.eq_of_toNat_eq
  split <;> simp [BitVec.toNat_add]

end Machine

end Sys2Proof
end

