-- ==== Sys2Proof/Laws/Word.lean ====
section
/-! SUPPORT. The two bytes of a 16-bit word, as bits and as numbers. -/

namespace Sys2Proof

theorem hiByte_word (a b : Byte) : hiByte (word a b) = a := by
  apply BitVec.eq_of_getLsbD_eq
  intro i hi
  have h : ¬8 + i < 8 := by omega
  simp only [word, hiByte, BitVec.getLsbD_append, BitVec.getLsbD_extractLsb', hi, decide_true, Bool.true_and, if_neg h]
  congr 1; omega

theorem loByte_word (a b : Byte) : loByte (word a b) = b := by
  apply BitVec.eq_of_getLsbD_eq
  intro i hi
  have h : 0 + i < 8 := by omega
  simp only [word, loByte, BitVec.getLsbD_append, BitVec.getLsbD_extractLsb', hi, decide_true, Bool.true_and, if_pos h]
  congr 1; omega

theorem word_bytes (a : Addr) : word (hiByte a) (loByte a) = a := by
  apply BitVec.eq_of_getLsbD_eq
  intro i hi
  simp only [word, hiByte, loByte, BitVec.getLsbD_append, BitVec.getLsbD_extractLsb']
  split
  · simp [*]
  · have h : i - 8 < 8 := by omega
    simp only [h, decide_true, Bool.true_and]
    congr 1; omega

/-- A word as a number. -/
theorem word_ofNat (h l : Byte) : word h l = BitVec.ofNat 16 (256 * h.toNat + l.toNat) := by
  apply BitVec.eq_of_toNat_eq
  have hl := l.isLt
  have hh := h.isLt
  simp only [word, BitVec.toNat_append, BitVec.toNat_ofNat]
  rw [← Nat.shiftLeft_add_eq_or_of_lt hl, Nat.shiftLeft_eq]
  omega

/-- A page-zero address as a number. -/
theorem word_zero (b : Byte) : word 0 b = BitVec.ofNat 16 b.toNat := by rw [word_ofNat]; simp

theorem hiByte_toNat (a : Addr) : (hiByte a).toNat = a.toNat / 256 := by
  have := a.isLt
  simp only [hiByte, BitVec.extractLsb'_toNat, Nat.shiftRight_eq_div_pow]
  omega

theorem loByte_toNat (a : Addr) : (loByte a).toNat = a.toNat % 256 := by
  simp only [loByte, BitVec.extractLsb'_toNat, Nat.shiftRight_zero]

end Sys2Proof
end

