-- ==== Sys2Proof/Laws/Decode.lean ====
section
/-! SUPPORT. The opcode map read against the encoder. -/

namespace Sys2Proof

/-- A cell of the opcode map agrees with the encoder: whatever its operand bytes, its instruction is encoded as the opcode and
those bytes. -/
def Shape.agrees (op : Byte) : Shape → Prop
  | .len1 i => encode i = [op]
  | .len2 f => ∀ b, encode (f b) = [op, b]
  | .len3 f => ∀ w, encode (f w) = [op, loByte w, hiByte w]

/-- The cells of a list agree with the opcodes from `k` up. -/
def Shape.allAgree : Nat → List Shape → Prop
  | _, [] => True
  | k, sh :: rest => sh.agrees (BitVec.ofNat 8 k) ∧ Shape.allAgree (k + 1) rest

theorem Shape.agrees_of_getD {l : List Shape} {k n : Nat} (h : Shape.allAgree k l) (hn : n < l.length) (d : Shape) :
    (l.getD n d).agrees (BitVec.ofNat 8 (k + n)) := by
  induction l generalizing k n with
  | nil => simp at hn
  | cons sh rest ih =>
    cases n with
    | zero => exact h.1
    | succ n =>
      have := ih h.2 (n := n) (by simpa using hn)
      rw [Nat.add_assoc, Nat.add_comm 1 n] at this
      exact this

/-- The rows of a map agree with the opcodes from `k` up, sixteen a row. -/
def Shape.rowsAgree : Nat → List (List Shape) → Prop
  | _, [] => True
  | k, r :: rest => (Shape.allAgree k r ∧ r.length = 16) ∧ Shape.rowsAgree (k + 16) rest

theorem Shape.agrees_of_rows {m : List (List Shape)} {k i j : Nat} (h : Shape.rowsAgree k m) (hi : i < m.length)
    (hj : j < 16) (d : Shape) : ((m.getD i []).getD j d).agrees (BitVec.ofNat 8 (k + 16 * i + j)) := by
  induction m generalizing k i with
  | nil => simp at hi
  | cons r m ih =>
    cases i with
    | zero => exact Shape.agrees_of_getD h.1.1 (by rw [h.1.2]; exact hj) d
    | succ i =>
      have := ih h.2 (i := i) (by simpa using hi)
      rw [show k + 16 * (i + 1) + j = k + 16 + 16 * i + j by omega]
      exact this

/-- The map, row by row. -/
theorem opcodeMap_agrees : Shape.rowsAgree 0 opcodeMap := by
  repeat' apply And.intro
  all_goals first | rfl | exact fun _ => rfl | trivial

/-- Every opcode byte's cell agrees with the encoder (R124, R128). -/
theorem opcodeShape_agrees (op : Byte) : (opcodeShape op).agrees op := by
  have hop : op.toNat < 256 := op.isLt
  have h := Shape.agrees_of_rows opcodeMap_agrees (i := op.toNat / 16) (j := op.toNat % 16)
    (by show _ < 16; omega) (by omega) (.len1 .nop)
  rw [Nat.zero_add, Nat.div_add_mod, BitVec.ofNat_toNat, BitVec.setWidth_eq] at h
  exact h

end Sys2Proof
end

