-- ==== Sys2Proof/Laws/Operands.lean ====
section
/-! SUPPORT. What the addressing modes and the operand reads leave alone, and the two "same but" relations of Safety.lean as
relations. -/

namespace Sys2Proof.Machine

/-! ## The relations -/

theorem sameButReads_refl (s : State) : sameButReads s s := rfl

theorem sameButReads_trans {s t u : State} (h1 : sameButReads s t) (h2 : sameButReads t u) : sameButReads s u := by
  unfold sameButReads at h1 h2
  rw [h1] at h2
  exact h2

/-- The relation says nothing of the CPU. -/
theorem sameButReads_withCpu {s t : State} (h : sameButReads s t) (c : Cpu) : sameButReads s { t with cpu := c } :=
  sameButReads_trans h rfl

theorem sameButBus_refl (s : State) : sameButBus s s := rfl

theorem sameButBus_trans {s t u : State} (h1 : sameButBus s t) (h2 : sameButBus t u) : sameButBus s u := by
  unfold sameButBus at h1 h2
  rw [h1] at h2
  exact h2

theorem sameButBus_withCpu {s t : State} (h : sameButBus s t) (c : Cpu) : sameButBus s { t with cpu := c } :=
  sameButBus_trans h rfl

/-- What reads can change, reads and writes can change. -/
theorem sameButBus_of_reads {s t : State} (h : sameButReads s t) : sameButBus s t := by
  unfold sameButReads at h
  rw [h]
  rfl

theorem cpuWrite_frame (s : State) (a : Addr) (d : Byte) : sameButBus s (cpuWrite s a d) := by
  rw [cpuWrite_eq]
  rfl

/-- Reads change no stored byte. -/
theorem byteAt_of_sameButReads {s t : State} (h : sameButReads s t) (l : Place) : t.byteAt l = s.byteAt l := by
  unfold sameButReads at h
  rw [h]
  cases l <;> rfl

theorem cart_of_sameButReads {s t : State} (h : sameButReads s t) : t.cart = s.cart := by
  unfold sameButReads at h
  rw [h]

/-! ## A two-byte read -/

@[simp] theorem memRead2_cpu (s : State) (a : Addr) : (memRead2 s a).2.cpu = s.cpu := by simp [memRead2]

theorem memRead2_frame (s : State) (a : Addr) : sameButReads s (memRead2 s a).2 :=
  sameButReads_trans (cpuRead_frame s a) (cpuRead_frame _ _)

/-! ## Addressing modes -/

@[simp] theorem zeroPagePointer_cpu (t : Byte) (s : State) : (zeroPagePointer t s).2.cpu = s.cpu := by
  simp [zeroPagePointer]

theorem zeroPagePointer_frame (t : Byte) (s : State) : sameButReads s (zeroPagePointer t s).2 :=
  sameButReads_trans (cpuRead_frame s _) (cpuRead_frame _ _)

/-- The addressing modes leave the CPU alone. -/
@[simp] theorem resolve_cpu (o : Operand) (s : State) : (resolve o s).st.cpu = s.cpu := by
  cases o <;> simp [resolve, resolveIndexed, resolveInd, resolveIzx, resolveIzy]

/-- The addressing modes make reads only. -/
theorem resolve_frame (o : Operand) (s : State) : sameButReads s (resolve o s).st := by
  cases o with
  | ind ptr => exact sameButReads_trans (cpuRead_frame s _) (cpuRead_frame _ _)
  | izx zp => exact zeroPagePointer_frame _ s
  | izy zp => exact zeroPagePointer_frame _ s
  | _ => exact sameButReads_refl s

/-- The operand read leaves the CPU alone. -/
@[simp] theorem fetchOperand_cpu (o : Operand) (s : State) : (fetchOperand o s).st.cpu = s.cpu := by
  cases o <;> simp [fetchOperand]

/-- The operand read makes reads only. -/
theorem fetchOperand_frame (o : Operand) (s : State) : sameButReads s (fetchOperand o s).st := by
  cases o with
  | imm v => exact sameButReads_refl s
  | acc => exact sameButReads_refl s
  | _ => exact sameButReads_trans (resolve_frame _ s) (cpuRead_frame _ _)

/-! ## The stack -/

@[simp] theorem push_cpu (v : Byte) (s : State) : (push v s).cpu = { s.cpu with sp := s.cpu.sp - 1 } := by
  simp [push, State.setSp]

@[simp] theorem pull_cpu (s : State) : (pull s).2.cpu = { s.cpu with sp := s.cpu.sp + 1 } := by
  simp [pull, State.setSp]

theorem push_frame (v : Byte) (s : State) : sameButBus s (push v s) :=
  sameButBus_withCpu (cpuWrite_frame s _ _) _

theorem pull_frame (s : State) : sameButReads s (pull s).2 :=
  sameButReads_trans (sameButReads_withCpu (sameButReads_refl s) _) (cpuRead_frame _ _)

/-! ## Reads above the devices -/

/-- A read above the controller ports changes nothing (R89). -/
theorem cpuRead_above (s : State) {a : Addr} (h : 0x4018 ≤ a.toNat) : (cpuRead s a).2 = s := by
  have h1 : a ≠ 0x4016 := by rintro rfl; simp at h
  have h2 : a ≠ 0x4017 := by rintro rfl; simp at h
  unfold cpuRead
  split; · rfl
  rw [if_neg (by omega), if_neg (by omega), if_neg h1, if_neg h2]

/-- The reads of a vector change nothing (R441). -/
theorem memRead2_above (s : State) {a : Addr} (h : 0x4018 ≤ a.toNat) (h' : 0x4018 ≤ (a + 1).toNat) :
    memRead2 s a = (word (cpuRead s (a + 1)).1 (cpuRead s a).1, s) := by
  simp only [memRead2, cpuRead_above s h, cpuRead_above s h']

/-! ## The stack page is RAM (R73, R76) -/

/-- The stack address as a number. -/
theorem stackAddress_toNat (sp : Byte) : (stackAddress sp).toNat = 0x100 + sp.toNat := by
  unfold stackAddress word
  revert sp; decide

theorem stackAddress_masked (sp : Byte) : (stackAddress sp &&& 0x07FF).toNat = 0x100 + sp.toNat := by
  have h : stackAddress sp &&& 0x07FF = stackAddress sp := by
    unfold stackAddress word
    revert sp; decide
  rw [h, stackAddress_toNat]

/-- A write to the stack page stores in RAM and does nothing else. -/
theorem cpuWrite_stack (s : State) (sp v : Byte) :
    cpuWrite s (stackAddress sp) v = s.setBus { s.bus with ram := s.bus.ram.write (0x100 + sp.toNat) v } := by
  have hlt : (stackAddress sp).toNat < 0x200 := by rw [stackAddress_toNat]; have := sp.isLt; omega
  have hc : (s.cart.any fun c => c.cpuWriteClaims (stackAddress sp)) = false := by
    cases s.cart with
    | none => rfl
    | some c => simp [Cartridge.cpuWriteClaims]; omega
  unfold cpuWrite
  rw [hc, if_neg (by simp), if_pos (by omega), stackAddress_masked]

/-- A read of the stack page gives the RAM's byte and changes nothing. -/
theorem cpuRead_stack (s : State) (sp : Byte) :
    cpuRead s (stackAddress sp) = (s.bus.ram.read (0x100 + sp.toNat), s) := by
  have hlt : (stackAddress sp).toNat < 0x200 := by rw [stackAddress_toNat]; have := sp.isLt; omega
  have hc : (s.cart.bind fun c => c.cpuRead (stackAddress sp)) = none := by
    cases s.cart with
    | none => rfl
    | some c => simp [Cartridge.cpuRead]; omega
  unfold cpuRead
  rw [hc]
  simp only
  rw [if_pos (by omega), stackAddress_masked]

/-- `Push` in terms of RAM. -/
theorem push_eq (v : Byte) (s : State) :
    push v s = { s with
      cpu := { s.cpu with sp := s.cpu.sp - 1 }
      bus := { s.bus with ram := s.bus.ram.write (0x100 + s.cpu.sp.toNat) v } } := by
  unfold push; rw [cpuWrite_stack]; rfl

/-- `Pull` in terms of RAM. -/
theorem pull_eq (s : State) :
    pull s = (s.bus.ram.read (0x100 + (s.cpu.sp + 1).toNat), { s with cpu := { s.cpu with sp := s.cpu.sp + 1 } }) := by
  unfold pull; rw [cpuRead_stack]; rfl

/-! ## Status bits -/

@[simp] theorem statusBits_byte (f : StatusBits) : statusBits f.byte = f := by
  rcases f with ⟨c, z, i, d, b, u, v, n⟩
  cases c <;> cases z <;> cases i <;> cases d <;> cases b <;> cases u <;> cases v <;> cases n <;> rfl

@[simp] theorem byte_statusBits (p : Byte) : (statusBits p).byte = p := by
  apply BitVec.eq_of_getLsbD_eq
  intro i hi
  simp only [StatusBits.byte, statusBits, BitVec.getLsbD_append, BitVec.getLsbD_ofBool]
  match i, hi with
  | 0, _ | 1, _ | 2, _ | 3, _ | 4, _ | 5, _ | 6, _ | 7, _ => rfl

end Sys2Proof.Machine
end

