-- ==== Sys2Proof/Laws/Exec.lean ====
section
/-! SUPPORT. One lemma per shape of instruction: what it answers, in the words of the claims; and that every instruction answers a
next state. -/

namespace Sys2Proof.Machine

/-! ## Flag computations as status bits -/

/-- A byte is given by its status bits. -/
theorem eq_byte {p : Byte} {f : StatusBits} (h : statusBits p = f) : p = f.byte := by rw [← h, byte_statusBits]

theorem withBits_getElem (mask : Byte) (b : Bool) (p : Byte) (k : Nat) (h : k < 8) :
    (withBits mask b p)[k] = if mask[k] then b else p[k] := by
  unfold withBits
  cases b <;> cases hm : mask[k] <;> simp [hm]

theorem withZN_bits (v p : Byte) : withZN v p = ((statusBits p).zn v).byte :=
  eq_byte (by simp [statusBits, StatusBits.zn, withZN, withZ, withN, withBits_getElem])

theorem withC_bits (c : Bool) (p : Byte) : withC c p = StatusBits.byte { statusBits p with c := c } :=
  eq_byte (by simp [statusBits, withC, withBits_getElem])

theorem withI_bits (i : Bool) (p : Byte) : withI i p = StatusBits.byte { statusBits p with i := i } :=
  eq_byte (by simp [statusBits, withI, withBits_getElem])

theorem withD_bits (d : Bool) (p : Byte) : withD d p = StatusBits.byte { statusBits p with d := d } :=
  eq_byte (by simp [statusBits, withD, withBits_getElem])

theorem withV_bits (v : Bool) (p : Byte) : withV v p = StatusBits.byte { statusBits p with v := v } :=
  eq_byte (by simp [statusBits, withV, withBits_getElem])

theorem flagC_bits (p : Byte) : flagC p = (statusBits p).c := rfl

theorem pulledStatus_bits (p : Byte) : pulledStatus p = StatusBits.byte { statusBits p with b := false, u := true } :=
  eq_byte (by simp [statusBits, pulledStatus])

theorem pushedByPhp_bits (p : Byte) : pushedByPhp p = StatusBits.byte { statusBits p with b := true, u := true } :=
  eq_byte (by simp [statusBits, pushedByPhp])

theorem pushedByEntry_bits (b : Bool) (p : Byte) :
    pushedByEntry b p = StatusBits.byte { statusBits p with b := b, u := true } :=
  eq_byte (by cases b <;> simp [statusBits, pushedByEntry])

theorem shiftFlags_bits (out : Bool) (r p : Byte) :
    shiftFlags out r p = StatusBits.byte { (statusBits p).zn r with c := out } := by
  rw [shiftFlags, withZN_bits, withC_bits, statusBits_byte]; rfl

theorem withCompare_bits (r m p : Byte) :
    withCompare r m p = StatusBits.byte { (statusBits p).zn (r - m) with c := decide (m.toNat ≤ r.toNat) } := by
  rw [withCompare, withZN_bits, withC_bits, statusBits_byte]; rfl

theorem withSum_bits (u : Sum) (p : Byte) :
    withSum u p = StatusBits.byte { (statusBits p).zn u.result with c := u.carry, v := u.overflow } := by
  rw [withSum, withZN_bits, withV_bits, statusBits_byte, withC_bits, statusBits_byte]; rfl

theorem withBitTest_bits (a m p : Byte) :
    withBitTest a m p =
      StatusBits.byte { statusBits p with z := decide (a &&& m = 0), n := m.getLsbD 7, v := m.getLsbD 6 } :=
  eq_byte (by simp [statusBits, withBitTest, withV, withN, withZ, withBits_getElem])

/-! ## Shapes -/

/-- What an instruction that reads its operand answers, when its operation changes only the CPU's registers. -/
theorem readInstr_eq {op : Byte → State → State} {g : Byte → Cpu → Cpu}
    (h : ∀ m st, op m st = { st with cpu := g m st.cpu }) (base : Nat) (o : Operand) (s : State) :
    readInstr op base o s = .next
      { (fetchOperand o s).st with
        cpu := { g (fetchOperand o s).value s.cpu with
                 cycles := base + if (fetchOperand o s).crossed then 1 else 0 } } := by
  simp only [readInstr, finish, h, State.setCycles, fetchOperand_cpu]
  cases (fetchOperand o s).crossed <;> rfl

/-- A form that reads, from its arm. -/
theorem Form.reads_of {f : Form} {g : Byte → Cpu → Cpu} {op : Byte → State → State} (he : f.encoded)
    (hx : ∀ s, exec f.instr s = readInstr op f.base f.operand s)
    (h : ∀ m st, op m st = { st with cpu := g m st.cpu }) : f.reads g :=
  ⟨he, fun s => by rw [hx, readInstr_eq h]⟩

/-- What a storing instruction answers. -/
theorem storeInstr_eq (v : Byte) (base : Nat) (o : Operand) (s : State) :
    storeInstr v base o s = .next
      { cpuWrite (resolve o s).st (resolve o s).ea v with cpu := { s.cpu with cycles := base } } := by
  simp only [storeInstr, finish, State.setCycles, cpuWrite_cpu, resolve_cpu]

/-- A write does not look at the CPU. -/
theorem cpuWrite_withCpu (s : State) (c : Cpu) (a : Addr) (d : Byte) :
    cpuWrite { s with cpu := c } a d = { cpuWrite s a d with cpu := c } := by
  unfold cpuWrite
  dsimp only
  split; · rfl
  split; · rfl
  split; · rfl
  split; · rfl
  split; · rfl
  split <;> rfl

/-- A read does not look at the CPU. -/
theorem cpuRead_withCpu (s : State) (c : Cpu) (a : Addr) :
    cpuRead { s with cpu := c } a = ((cpuRead s a).1, { (cpuRead s a).2 with cpu := c }) := by
  unfold cpuRead
  dsimp only
  split; · rfl
  split; · rfl
  split; · rfl
  split; · rfl
  split <;> rfl

theorem cpuRead_fst_withCpu (s : State) (c : Cpu) (a : Addr) : (cpuRead { s with cpu := c } a).1 = (cpuRead s a).1 := by
  rw [cpuRead_withCpu]

/-- What a read-modify-write instruction answers on memory. -/
theorem modifyInstr_eq (f flags : Byte → Byte → Byte) (base : Nat) {o : Operand} (ho : o ≠ .acc) (s : State) :
    modifyInstr f flags base o s =
      (let r := resolve o s
       let m := cpuRead r.st r.ea
       .next { cpuWrite m.2 r.ea (f m.1 s.cpu.p) with
               cpu := { s.cpu with p := flags m.1 s.cpu.p, cycles := base } }) := by
  have key : ∀ r : Resolved, r.st.cpu = s.cpu →
      finish base (cpuWrite ((cpuRead r.st r.ea).2.setP (flags (cpuRead r.st r.ea).1 (cpuRead r.st r.ea).2.cpu.p)) r.ea
        (f (cpuRead r.st r.ea).1 (cpuRead r.st r.ea).2.cpu.p)) =
      .next { cpuWrite (cpuRead r.st r.ea).2 r.ea (f (cpuRead r.st r.ea).1 s.cpu.p) with
              cpu := { s.cpu with p := flags (cpuRead r.st r.ea).1 s.cpu.p, cycles := base } } := by
    intro r hr
    simp only [finish, State.setP, State.setCycles, cpuWrite_withCpu, cpuRead_cpu, hr]
  cases o with
  | acc => exact absurd rfl ho
  | _ => exact key _ (resolve_cpu _ s)

/-- What a read-modify-write instruction answers on the accumulator. -/
theorem modifyInstr_acc (f flags : Byte → Byte → Byte) (base : Nat) (s : State) :
    modifyInstr f flags base .acc s = .next
      { s with cpu := { s.cpu with a := f s.cpu.a s.cpu.p, p := flags s.cpu.a s.cpu.p, cycles := base } } := rfl

/-- The target of a branch as a number (R160, R241). -/
theorem branchTarget_eq (pc : Addr) (disp : Byte) : pc + disp.signExtend 16 = BitVec.ofInt 16 (pc.toNat + disp.toInt) := by
  apply BitVec.eq_of_toInt_eq
  rw [BitVec.toInt_add, BitVec.toInt_signExtend_of_le (by decide), BitVec.toInt_ofInt, BitVec.toInt_eq_toNat_bmod]
  simp

/-- What a branch answers. -/
theorem branchInstr_eq (taken : Bool) (disp : Byte) (s : State) :
    branchInstr taken disp s =
      (let target : Addr := BitVec.ofInt 16 (s.cpu.pc.toNat + disp.toInt)
       .next { s with cpu :=
         if taken then
           { s.cpu with pc := target, cycles := if target.toNat / 256 = s.cpu.pc.toNat / 256 then 3 else 4 }
         else { s.cpu with cycles := 2 } }) := by
  cases taken with
  | false => rfl
  | true =>
    simp only [branchInstr, branchTarget_eq, finish, State.setPc, State.setCycles, if_true]
    generalize (BitVec.ofInt 16 (s.cpu.pc.toNat + disp.toInt) : Addr) = target
    have page : hiByte target ≠ hiByte s.cpu.pc ↔ ¬target.toNat / 256 = s.cpu.pc.toNat / 256 := by
      rw [ne_eq, ← BitVec.toNat_inj, hiByte_toNat, hiByte_toNat]
    simp only [page]
    by_cases h : target.toNat / 256 = s.cpu.pc.toNat / 256 <;> simp [h]

/-! ## The stack shapes -/

/-- The common entry, in terms of RAM (R444). -/
theorem enter_eq (vector : Addr) (b : Bool) (s : State) :
    enter vector b s =
      (let ram1 := s.bus.ram.write (0x100 + s.cpu.sp.toNat) (hiByte s.cpu.pc)
       let ram2 := ram1.write (0x100 + (s.cpu.sp - 1).toNat) (loByte s.cpu.pc)
       let ram3 := ram2.write (0x100 + (s.cpu.sp - 2).toNat) (pushedByEntry b s.cpu.p)
       let pushed : State :=
         { s with cpu := { s.cpu with sp := s.cpu.sp - 3, p := withI true s.cpu.p }
                  bus := { s.bus with ram := ram3 } }
       { (memRead2 pushed vector).2 with cpu := { pushed.cpu with pc := (memRead2 pushed vector).1 } }) := by
  have e2 : s.cpu.sp - 1 - 1 = s.cpu.sp - 2 := by rw [BitVec.sub_sub]; rfl
  have e3 : s.cpu.sp - 2 - 1 = s.cpu.sp - 3 := by rw [BitVec.sub_sub]; rfl
  simp only [enter, push_eq, State.setP, State.setPc, e2, e3, memRead2_cpu]

/-- The return from an exception, in terms of RAM (R278). -/
theorem returnFromInterrupt_eq (s : State) :
    returnFromInterrupt s =
      { s with cpu := { s.cpu with
          p := pulledStatus (s.bus.ram.read (0x100 + (s.cpu.sp + 1).toNat))
          pc := word (s.bus.ram.read (0x100 + (s.cpu.sp + 3).toNat)) (s.bus.ram.read (0x100 + (s.cpu.sp + 2).toNat))
          sp := s.cpu.sp + 3 } } := by
  have e2 : s.cpu.sp + 1 + 1 = s.cpu.sp + 2 := by rw [BitVec.add_assoc]; rfl
  have e3 : s.cpu.sp + 2 + 1 = s.cpu.sp + 3 := by rw [BitVec.add_assoc]; rfl
  simp only [returnFromInterrupt, pull_eq, State.setP, State.setPc, e2, e3]

/-- The return from a subroutine, in terms of RAM (R251). -/
theorem returnFromSubroutine_eq (s : State) :
    returnFromSubroutine s =
      { s with cpu := { s.cpu with
          pc := word (s.bus.ram.read (0x100 + (s.cpu.sp + 2).toNat)) (s.bus.ram.read (0x100 + (s.cpu.sp + 1).toNat)) + 1
          sp := s.cpu.sp + 2 } } := by
  have e2 : s.cpu.sp + 1 + 1 = s.cpu.sp + 2 := by rw [BitVec.add_assoc]; rfl
  simp only [returnFromSubroutine, pull_eq, State.setPc, e2]

/-! ## Every instruction answers a next state -/

/-- No instruction stops (R442). -/
theorem exec_next (i : Instr) (s : State) : ∃ t, exec i s = .next t := by
  cases i with
  | bcc d => exact ⟨_, branchInstr_eq _ d s⟩
  | bcs d => exact ⟨_, branchInstr_eq _ d s⟩
  | beq d => exact ⟨_, branchInstr_eq _ d s⟩
  | bne d => exact ⟨_, branchInstr_eq _ d s⟩
  | bmi d => exact ⟨_, branchInstr_eq _ d s⟩
  | bpl d => exact ⟨_, branchInstr_eq _ d s⟩
  | bvc d => exact ⟨_, branchInstr_eq _ d s⟩
  | bvs d => exact ⟨_, branchInstr_eq _ d s⟩
  | _ => exact ⟨_, rfl⟩

end Sys2Proof.Machine
end

