-- ==== Sys2Proof/Laws/Place.lean ====
section
/-! SUPPORT. Which byte a CPU write stores (R72, R307, R309, R321): the place `storePlace` names gets the byte, every other place
keeps its own. -/

namespace Sys2Proof.Machine

/-- The byte a place of the PPU holds. -/
theorem byteAt_setPpu (s : State) (p : Ppu) (l : Place) :
    (s.setPpu p).byteAt l = match l with
      | .nametable0 k => p.nt0.read k
      | .nametable1 k => p.nt1.read k
      | .palette k => p.pal.read k
      | .oam k => p.oam.read k
      | .pattern k => p.pat.read k
      | .picture k => p.frame.read k
      | l => s.byteAt l := by
  cases l <;> rfl

/-- A PPU write stores at `ppuPlace` and nowhere else (R321). -/
theorem ppuWrite_byteAt (s : State) (a : Addr) (d : Byte) (l : Place) :
    (s.setPpu (ppuWrite s.cart s.ppu a d)).byteAt l = if ppuPlace s.cart a = l then d else s.byteAt l := by
  have hc : (s.cart.any fun c => c.ppuWriteClaims (a.setWidth 14 : BitVec 14).toNat) = false := by cases s.cart <;> rfl
  unfold ppuWrite ppuPlace
  simp only [hc, Bool.false_eq_true, if_false]
  by_cases h1 : (a.setWidth 14 : BitVec 14).toNat ≤ 0x1FFF
  · simp only [h1, if_true]
    cases l <;> simp [State.byteAt, State.setPpu, Memory.read_write, eq_comm]
  by_cases h2 : (a.setWidth 14 : BitVec 14).toNat ≤ 0x3EFF
  · simp only [h1, h2, if_true, if_false]
    cases nametableBank s.cart (a.setWidth 14) <;> cases l <;>
      simp [State.byteAt, State.setPpu, Memory.read_write, eq_comm]
  · simp only [h1, h2, if_false]
    cases l <;> simp [State.byteAt, State.setPpu, Memory.read_write, eq_comm]

/-- A change of a PPU register that is no memory leaves every byte. -/
theorem byteAt_setPpu_same {s : State} {p : Ppu} (h0 : p.nt0 = s.ppu.nt0) (h1 : p.nt1 = s.ppu.nt1) (hp : p.pal = s.ppu.pal)
    (ho : p.oam = s.ppu.oam) (ht : p.pat = s.ppu.pat) (hf : p.frame = s.ppu.frame) (l : Place) :
    (s.setPpu p).byteAt l = s.byteAt l := by
  rw [byteAt_setPpu]
  cases l <;> simp [State.byteAt, *]

/-- A port write stores in OAM through port 4, in PPU memory through port 7, and nowhere else (R302). -/
theorem ppuPortWrite_byteAt (s : State) (port : BitVec 3) (d : Byte) (l : Place) :
    (s.setPpu (ppuPortWrite s.cart s.ppu port d)).byteAt l =
      if (if port = 4 then some (.oam s.ppu.oamAddr.toNat)
          else if port = 7 then some (ppuPlace s.cart (dataAddress s.ppu)) else none) = some l then d
      else s.byteAt l := by
  have scroll : ∀ l, (s.setPpu (writeScroll s.ppu d)).byteAt l = s.byteAt l := by
    unfold writeScroll; split <;> exact byteAt_setPpu_same rfl rfl rfl rfl rfl rfl
  have address : ∀ l, (s.setPpu (writeAddress s.ppu d)).byteAt l = s.byteAt l := by
    unfold writeAddress; split <;> exact byteAt_setPpu_same rfl rfl rfl rfl rfl rfl
  match port with
  | 0 | 1 | 2 | 3 => exact byteAt_setPpu_same rfl rfl rfl rfl rfl rfl l
  | 4 => cases l <;> simp [ppuPortWrite, State.byteAt, State.setPpu, Memory.read_write, eq_comm]
  | 5 => exact scroll l
  | 6 => exact address l
  | 7 =>
    have h := ppuWrite_byteAt s (dataAddress s.ppu) d l
    have e : (if ppuPlace s.cart (dataAddress s.ppu) = l then d else s.byteAt l) =
        if some (ppuPlace s.cart (dataAddress s.ppu)) = some l then d else s.byteAt l := by
      simp only [Option.some.injEq]
    refine Eq.trans ?_ (h.trans e)
    cases l <;> rfl

/-- A CPU write stores at `storePlace` and nowhere else. -/
theorem cpuWrite_byteAt (s : State) (a : Addr) (d : Byte) (l : Place) :
    (cpuWrite s a d).byteAt l = if storePlace s a = some l then d else s.byteAt l := by
  have portIs : ∀ k : BitVec 3, (a.extractLsb' 0 3 = k) ↔ a.toNat % 8 = k.toNat := fun k => by
    rw [← BitVec.toNat_inj, BitVec.extractLsb'_toNat, Nat.shiftRight_zero]
  have claims : (s.cart.any fun c => c.cpuWriteClaims a) = true ↔ s.cart.isSome ∧ 0x8000 ≤ a.toNat := by
    cases s.cart <;> simp [Cartridge.cpuWriteClaims]
  have masked : (a &&& 0x07FF).toNat = a.toNat % 0x800 := by
    rw [BitVec.toNat_and]
    exact Nat.and_two_pow_sub_one_eq_mod a.toNat 11
  unfold cpuWrite storePlace
  simp only [claims]
  split
  · simp
  split
  · rw [masked]
    cases l <;> simp [State.byteAt, State.setBus, Memory.read_write, eq_comm]
  split
  · rw [ppuPortWrite_byteAt]
    simp only [portIs]
    rfl
  · have dev : ∀ t : State, t.bus.ram = s.bus.ram → t.ppu = s.ppu → t.cart = s.cart → t.byteAt l = s.byteAt l := by
      intro t h1 h2 h3
      cases l <;> simp [State.byteAt, h1, h2, h3]
    simp only [reduceCtorEq, if_false]
    split; · exact dev _ rfl rfl rfl
    split; · exact dev _ rfl rfl rfl
    split; · exact dev _ rfl rfl rfl
    · rfl

end Sys2Proof.Machine
end

