-- ==== Sys2Proof/Laws/Instr.lean ====
section
/-! SUPPORT. What each group of instructions answers, by mnemonic and not by constructor: one lemma for the instructions that read
an operand, one for those that store, that modify memory, that branch, that change registers only, and for the illegal
opcodes. -/

namespace Sys2Proof.Machine

/-! ## Reading -/

/-- What a reading instruction does to the CPU with the value it read. -/
def readEffect : Mnemonic → Byte → Cpu → Cpu
  | .lda, m, c => { c with a := m, p := ((statusBits c.p).zn m).byte }
  | .ldx, m, c => { c with x := m, p := ((statusBits c.p).zn m).byte }
  | .ldy, m, c => { c with y := m, p := ((statusBits c.p).zn m).byte }
  | .and, m, c => { c with a := c.a &&& m, p := ((statusBits c.p).zn (c.a &&& m)).byte }
  | .ora, m, c => { c with a := c.a ||| m, p := ((statusBits c.p).zn (c.a ||| m)).byte }
  | .eor, m, c => { c with a := c.a ^^^ m, p := ((statusBits c.p).zn (c.a ^^^ m)).byte }
  | .cmp, m, c => { c with p := StatusBits.byte { (statusBits c.p).zn (c.a - m) with c := decide (m.toNat ≤ c.a.toNat) } }
  | .cpx, m, c => { c with p := StatusBits.byte { (statusBits c.p).zn (c.x - m) with c := decide (m.toNat ≤ c.x.toNat) } }
  | .cpy, m, c => { c with p := StatusBits.byte { (statusBits c.p).zn (c.y - m) with c := decide (m.toNat ≤ c.y.toNat) } }
  | .bit, m, c =>
    { c with p := StatusBits.byte { statusBits c.p with z := decide (c.a &&& m = 0), n := m.getLsbD 7, v := m.getLsbD 6 } }
  | .adc, m, c =>
    let u := addBytes c.a m (statusBits c.p).c
    { c with a := u.result
             p := StatusBits.byte { (statusBits c.p).zn u.result with c := u.carry, v := u.overflow } }
  | .sbc, m, c =>
    let u := addBytes c.a (m ^^^ 0xFF) (statusBits c.p).c
    { c with a := u.result
             p := StatusBits.byte { (statusBits c.p).zn u.result with c := u.carry, v := u.overflow } }
  | _, _, c => c

section ops
variable (m : Byte) (s : State)

theorem opLda_eq : opLda m s = { s with cpu := readEffect .lda m s.cpu } := by
  simp only [opLda, State.setZN, State.setP, State.setA, withZN_bits, readEffect]
theorem opLdx_eq : opLdx m s = { s with cpu := readEffect .ldx m s.cpu } := by
  simp only [opLdx, State.setZN, State.setP, State.setX, withZN_bits, readEffect]
theorem opLdy_eq : opLdy m s = { s with cpu := readEffect .ldy m s.cpu } := by
  simp only [opLdy, State.setZN, State.setP, State.setY, withZN_bits, readEffect]
theorem opAnd_eq : opAnd m s = { s with cpu := readEffect .and m s.cpu } := by
  simp only [opAnd, State.setZN, State.setP, State.setA, withZN_bits, readEffect]
theorem opOra_eq : opOra m s = { s with cpu := readEffect .ora m s.cpu } := by
  simp only [opOra, State.setZN, State.setP, State.setA, withZN_bits, readEffect]
theorem opEor_eq : opEor m s = { s with cpu := readEffect .eor m s.cpu } := by
  simp only [opEor, State.setZN, State.setP, State.setA, withZN_bits, readEffect]
theorem opCmp_eq : opCmp m s = { s with cpu := readEffect .cmp m s.cpu } := by
  simp only [opCmp, State.setP, withCompare_bits, readEffect]
theorem opCpx_eq : opCpx m s = { s with cpu := readEffect .cpx m s.cpu } := by
  simp only [opCpx, State.setP, withCompare_bits, readEffect]
theorem opCpy_eq : opCpy m s = { s with cpu := readEffect .cpy m s.cpu } := by
  simp only [opCpy, State.setP, withCompare_bits, readEffect]
theorem opBit_eq : opBit m s = { s with cpu := readEffect .bit m s.cpu } := by
  simp only [opBit, State.setP, withBitTest_bits, readEffect]
theorem opAdc_eq : opAdc m s = { s with cpu := readEffect .adc m s.cpu } := by
  simp only [opAdc, State.setSum, State.setP, State.setA, withSum_bits, flagC_bits, readEffect]
theorem opSbc_eq : opSbc m s = { s with cpu := readEffect .sbc m s.cpu } := by
  simp only [opSbc, State.setSum, State.setP, State.setA, withSum_bits, flagC_bits, readEffect]

end ops

/-- The mnemonics of the reading instructions. -/
abbrev readers : List Mnemonic := [.lda, .ldx, .ldy, .adc, .sbc, .cmp, .cpx, .cpy, .and, .ora, .eor, .bit]

/-! ## Registers only -/

/-- What an instruction that changes registers only does to the CPU. -/
def setEffect : Mnemonic → Cpu → Cpu
  | .tax, c => { c with x := c.a, p := ((statusBits c.p).zn c.a).byte }
  | .tay, c => { c with y := c.a, p := ((statusBits c.p).zn c.a).byte }
  | .txa, c => { c with a := c.x, p := ((statusBits c.p).zn c.x).byte }
  | .tya, c => { c with a := c.y, p := ((statusBits c.p).zn c.y).byte }
  | .tsx, c => { c with x := c.sp, p := ((statusBits c.p).zn c.sp).byte }
  | .txs, c => { c with sp := c.x }
  | .inx, c => { c with x := c.x + 1, p := ((statusBits c.p).zn (c.x + 1)).byte }
  | .iny, c => { c with y := c.y + 1, p := ((statusBits c.p).zn (c.y + 1)).byte }
  | .dex, c => { c with x := c.x - 1, p := ((statusBits c.p).zn (c.x - 1)).byte }
  | .dey, c => { c with y := c.y - 1, p := ((statusBits c.p).zn (c.y - 1)).byte }
  | .clc, c => { c with p := StatusBits.byte { statusBits c.p with c := false } }
  | .sec, c => { c with p := StatusBits.byte { statusBits c.p with c := true } }
  | .cli, c => { c with p := StatusBits.byte { statusBits c.p with i := false } }
  | .sei, c => { c with p := StatusBits.byte { statusBits c.p with i := true } }
  | .clv, c => { c with p := StatusBits.byte { statusBits c.p with v := false } }
  | .cld, c => { c with p := StatusBits.byte { statusBits c.p with d := false } }
  | .sed, c => { c with p := StatusBits.byte { statusBits c.p with d := true } }
  | _, c => c

/-! ## Every instruction, by its row -/

/-- The displacement of a branch. -/
def branchDisp : Operand → Byte
  | .rel d => d
  | _ => 0

/-- What each mnemonic does, over the shared operations: the 256 meanings read by row. -/
def meaning (r : Row) (s : State) : Result :=
  match r.mnemonic with
  | .lda => readInstr opLda r.base r.operand s
  | .ldx => readInstr opLdx r.base r.operand s
  | .ldy => readInstr opLdy r.base r.operand s
  | .adc => readInstr opAdc r.base r.operand s
  | .sbc => readInstr opSbc r.base r.operand s
  | .cmp => readInstr opCmp r.base r.operand s
  | .cpx => readInstr opCpx r.base r.operand s
  | .cpy => readInstr opCpy r.base r.operand s
  | .and => readInstr opAnd r.base r.operand s
  | .ora => readInstr opOra r.base r.operand s
  | .eor => readInstr opEor r.base r.operand s
  | .bit => readInstr opBit r.base r.operand s
  | .sta => storeInstr s.cpu.a r.base r.operand s
  | .stx => storeInstr s.cpu.x r.base r.operand s
  | .sty => storeInstr s.cpu.y r.base r.operand s
  | .inc => modifyInstr incResult incFlags r.base r.operand s
  | .dec => modifyInstr decResult decFlags r.base r.operand s
  | .asl => modifyInstr aslResult aslFlags r.base r.operand s
  | .lsr => modifyInstr lsrResult lsrFlags r.base r.operand s
  | .rol => modifyInstr rolResult rolFlags r.base r.operand s
  | .ror => modifyInstr rorResult rorFlags r.base r.operand s
  | .bcc => branchInstr (!flagC s.cpu.p) (branchDisp r.operand) s
  | .bcs => branchInstr (flagC s.cpu.p) (branchDisp r.operand) s
  | .beq => branchInstr (flagZ s.cpu.p) (branchDisp r.operand) s
  | .bne => branchInstr (!flagZ s.cpu.p) (branchDisp r.operand) s
  | .bmi => branchInstr (flagN s.cpu.p) (branchDisp r.operand) s
  | .bpl => branchInstr (!flagN s.cpu.p) (branchDisp r.operand) s
  | .bvc => branchInstr (!flagV s.cpu.p) (branchDisp r.operand) s
  | .bvs => branchInstr (flagV s.cpu.p) (branchDisp r.operand) s
  | .jmp => jumpTo r.base r.operand s
  | .jsr => jumpToSubroutine (resolve r.operand s).ea s
  | .rts => finish r.base (returnFromSubroutine s)
  | .pha => finish r.base (push s.cpu.a s)
  | .php => finish r.base (push (pushedByPhp s.cpu.p) s)
  | .pla => finish r.base (pullA s)
  | .plp => finish r.base (pullP s)
  | .brk => finish r.base (enter 0xFFFE true (s.setPc (s.cpu.pc + 1)))
  | .rti => finish r.base (returnFromInterrupt s)
  | .illegal => illegalInstr r.opcode s
  | m => finish r.base { s with cpu := setEffect m s.cpu }

/-- Every arm of exec is the meaning of its row. -/
theorem exec_eq_meaning (i : Instr) (s : State) : exec i s = meaning i.row s := by
  cases i <;>
    first
    | rfl
    | simp only [exec, execTax, execTay, execTxa, execTya, execTsx, execInx, execIny, execDex, execDey, execClc, execSec,
        execCli, execSei, execClv, execCld, execSed, meaning, Instr.row, setEffect, State.setZN, State.setP, State.setX,
        State.setY, State.setA, withZN_bits, withC_bits, withI_bits, withV_bits, withD_bits]

/-! ## The groups -/

/-- What a reading instruction answers. -/
theorem exec_reads {i : Instr} (h : i.row.mnemonic ∈ readers) (s : State) :
    exec i s = .next
      { (fetchOperand i.row.operand s).st with
        cpu := { readEffect i.row.mnemonic (fetchOperand i.row.operand s).value s.cpu with
                 cycles := i.row.base + if (fetchOperand i.row.operand s).crossed then 1 else 0 } } := by
  rw [exec_eq_meaning]
  generalize i.row = r at h
  obtain ⟨op, mn, o, base⟩ := r
  simp only [List.mem_cons, List.not_mem_nil, or_false] at h
  rcases h with rfl | rfl | rfl | rfl | rfl | rfl | rfl | rfl | rfl | rfl | rfl | rfl
  · exact readInstr_eq opLda_eq _ _ s
  · exact readInstr_eq opLdx_eq _ _ s
  · exact readInstr_eq opLdy_eq _ _ s
  · exact readInstr_eq opAdc_eq _ _ s
  · exact readInstr_eq opSbc_eq _ _ s
  · exact readInstr_eq opCmp_eq _ _ s
  · exact readInstr_eq opCpx_eq _ _ s
  · exact readInstr_eq opCpy_eq _ _ s
  · exact readInstr_eq opAnd_eq _ _ s
  · exact readInstr_eq opOra_eq _ _ s
  · exact readInstr_eq opEor_eq _ _ s
  · exact readInstr_eq opBit_eq _ _ s

/-- The byte a storing instruction stores. -/
def storeValue : Mnemonic → Cpu → Byte
  | .sta, c => c.a
  | .stx, c => c.x
  | _, c => c.y

/-- What a storing instruction answers. -/
theorem exec_stores {i : Instr} (h : i.row.mnemonic ∈ ([.sta, .stx, .sty] : List Mnemonic)) (s : State) :
    exec i s = .next
      { cpuWrite (resolve i.row.operand s).st (resolve i.row.operand s).ea (storeValue i.row.mnemonic s.cpu) with
        cpu := { s.cpu with cycles := i.row.base } } := by
  rw [exec_eq_meaning]
  generalize i.row = r at h
  obtain ⟨op, mn, o, base⟩ := r
  simp only [List.mem_cons, List.not_mem_nil, or_false] at h
  rcases h with rfl | rfl | rfl <;> exact storeInstr_eq _ _ _ s

/-- The result of a read-modify-write instruction. -/
def modifyResult : Mnemonic → Byte → Byte → Byte
  | .inc => incResult
  | .dec => decResult
  | .asl => aslResult
  | .lsr => lsrResult
  | .rol => rolResult
  | _ => rorResult

/-- The new P of a read-modify-write instruction. -/
def modifyFlags : Mnemonic → Byte → Byte → Byte
  | .inc => incFlags
  | .dec => decFlags
  | .asl => aslFlags
  | .lsr => lsrFlags
  | .rol => rolFlags
  | _ => rorFlags

/-- The mnemonics of the read-modify-write instructions. -/
abbrev modifiers : List Mnemonic := [.inc, .dec, .asl, .lsr, .rol, .ror]

/-- What a read-modify-write instruction answers, as one shape. -/
theorem exec_modifies {i : Instr} (h : i.row.mnemonic ∈ modifiers) (s : State) :
    exec i s = modifyInstr (modifyResult i.row.mnemonic) (modifyFlags i.row.mnemonic) i.row.base i.row.operand s := by
  rw [exec_eq_meaning]
  generalize i.row = r at h
  obtain ⟨op, mn, o, base⟩ := r
  simp only [List.mem_cons, List.not_mem_nil, or_false] at h
  rcases h with rfl | rfl | rfl | rfl | rfl | rfl <;> rfl

/-- A read-modify-write instruction leaves I, D, B, U and V of P alone, and INC and DEC leave C alone. -/
theorem modifyFlags_keep (mn : Mnemonic) (m p : Byte) :
    let f := statusBits p
    let g := statusBits (modifyFlags mn m p)
    g.i = f.i ∧ g.d = f.d ∧ g.b = f.b ∧ g.u = f.u ∧ g.v = f.v ∧ (mn = .inc ∨ mn = .dec → g.c = f.c) := by
  cases mn <;>
    simp [modifyFlags, incFlags, decFlags, aslFlags, lsrFlags, rolFlags, rorFlags, shiftFlags_bits, withZN_bits, StatusBits.zn]

/-- What a branch answers. -/
theorem exec_branches {i : Instr} (h : i.row.mnemonic ∈ ([.bcc, .bcs, .beq, .bne, .bmi, .bpl, .bvc, .bvs] : List Mnemonic))
    (s : State) : ∃ taken, exec i s = branchInstr taken (branchDisp i.row.operand) s := by
  rw [exec_eq_meaning]
  generalize i.row = r at h
  obtain ⟨op, mn, o, base⟩ := r
  simp only [List.mem_cons, List.not_mem_nil, or_false] at h
  rcases h with rfl | rfl | rfl | rfl | rfl | rfl | rfl | rfl <;> exact ⟨_, rfl⟩

/-! ## What a write after reads changes -/

theorem byteAt_withCpu (s : State) (c : Cpu) (l : Place) : ({ s with cpu := c } : State).byteAt l = s.byteAt l := by
  cases l <;> rfl

/-- A state that some reads and then one write gave. -/
theorem write_frame {s u t : State} {a : Addr} {d : Byte} {c : Cpu} (hu : sameButReads s u)
    (ht : (Host.Outcome.next { cpuWrite u a d with cpu := c } : Result) = .next t) :
    (∀ l : Place, storePlace u a ≠ some l → t.byteAt l = s.byteAt l) ∧
      (∀ l : Place, storePlace u a = some l → t.byteAt l = d) ∧ t.cpu = c ∧ sameButBus s t := by
  cases ht
  refine ⟨fun l hl => ?_, fun l hl => ?_, rfl, ?_⟩
  · rw [byteAt_withCpu, cpuWrite_byteAt, if_neg hl, byteAt_of_sameButReads hu]
  · rw [byteAt_withCpu, cpuWrite_byteAt, if_pos hl]
  · exact sameButBus_trans (sameButBus_of_reads hu) (sameButBus_withCpu (cpuWrite_frame u a d) c)

/-- What a read-modify-write instruction leaves alone. -/
theorem modifyInstr_frame {f flags : Byte → Byte → Byte} {base : Nat} {o : Operand} {s t : State}
    (ht : modifyInstr f flags base o s = .next t) :
    (o ≠ .acc →
      (∀ l : Place, storePlace (cpuRead (resolve o s).st (resolve o s).ea).2 (resolve o s).ea ≠ some l →
        t.byteAt l = s.byteAt l) ∧
      t.cpu.a = s.cpu.a ∧ sameButBus s t) ∧
    (o = .acc → t = { s with cpu := t.cpu }) ∧
    ∃ (m a : Byte) (n : Nat), t.cpu = { s.cpu with a := a, p := flags m s.cpu.p, cycles := n } := by
  by_cases ho : o = .acc
  · subst ho
    rw [modifyInstr_acc] at ht
    cases ht
    exact ⟨fun h => absurd rfl h, fun _ => rfl, _, _, _, rfl⟩
  · rw [modifyInstr_eq _ _ _ ho] at ht
    obtain ⟨h1, -, h3, h4⟩ := write_frame (sameButReads_trans (resolve_frame _ s) (cpuRead_frame _ _)) ht
    exact ⟨fun _ => ⟨h1, by rw [h3], h4⟩, fun h => absurd h ho, _, _, _, h3⟩

/-! ## What every instruction keeps -/

/-- A property of states that CPU reads, CPU writes and changes of CPU registers keep. -/
structure KeptByBus (I : State → Prop) : Prop where
  read : ∀ s a, I s → I (cpuRead s a).2
  write : ∀ s a d, I s → I (cpuWrite s a d)
  cpu : ∀ (s : State) (c : Cpu), I s → I { s with cpu := c }

section kept
variable {I : State → Prop} (h : KeptByBus I)
include h

theorem KeptByBus.memRead2 {s : State} (a : Addr) (hs : I s) : I (memRead2 s a).2 := h.read _ _ (h.read _ _ hs)

theorem KeptByBus.resolve {s : State} (o : Operand) (hs : I s) : I (resolve o s).st := by
  cases o with
  | ind ptr => exact h.read _ _ (h.read _ _ hs)
  | izx zp => exact h.read _ _ (h.read _ _ hs)
  | izy zp => exact h.read _ _ (h.read _ _ hs)
  | _ => exact hs

theorem KeptByBus.fetchOperand {s : State} (o : Operand) (hs : I s) : I (fetchOperand o s).st := by
  cases o with
  | imm v => exact hs
  | acc => exact hs
  | _ => exact h.read _ _ (h.resolve _ hs)

theorem KeptByBus.push {s : State} (v : Byte) (hs : I s) : I (push v s) := h.cpu _ _ (h.write _ _ _ hs)

theorem KeptByBus.pull {s : State} (hs : I s) : I (pull s).2 := h.read _ _ (h.cpu _ _ hs)

theorem KeptByBus.enter {s : State} (vector : Addr) (b : Bool) (hs : I s) : I (enter vector b s) :=
  h.cpu _ _ (h.memRead2 _ (h.cpu _ _ (h.push _ (h.push _ (h.push _ hs)))))

/-- Every instruction keeps what the bus operations keep. -/
theorem KeptByBus.exec {i : Instr} {s t : State} (hs : I s) (ht : exec i s = .next t) : I t := by
  by_cases hr : i.row.mnemonic ∈ readers
  · rw [exec_reads hr] at ht
    cases ht
    exact h.cpu _ _ (h.fetchOperand _ hs)
  by_cases hm : i.row.mnemonic ∈ modifiers
  · rw [exec_modifies hm] at ht
    by_cases ho : i.row.operand = .acc
    · rw [ho, modifyInstr_acc] at ht
      cases ht
      exact h.cpu _ _ hs
    · rw [modifyInstr_eq _ _ _ ho] at ht
      cases ht
      exact h.cpu _ _ (h.write _ _ _ (h.read _ _ (h.resolve _ hs)))
  rw [exec_eq_meaning] at ht
  generalize i.row = r at ht hr hm
  obtain ⟨op, mn, o, base⟩ := r
  have store : ∀ v base, storeInstr v base o s = .next t → I t := fun v base e => by
    rw [storeInstr_eq] at e
    cases e
    exact h.cpu _ _ (h.write _ _ _ (h.resolve _ hs))
  have branch : ∀ taken, branchInstr taken (branchDisp o) s = .next t → I t := fun taken e => by
    rw [branchInstr_eq] at e
    cases e
    exact h.cpu _ _ hs
  cases mn <;>
    first
    | exact branch _ ht
    | exact store _ _ ht
    | (simp at hr; done)
    | (simp at hm; done)
    | skip
  case brk => cases ht; exact h.cpu _ _ (h.enter _ _ (h.cpu _ _ hs))
  case jmp => cases ht; exact h.cpu _ _ (h.cpu _ _ (h.resolve _ hs))
  case jsr => cases ht; exact h.cpu _ _ (h.cpu _ _ (h.push _ (h.push _ hs)))
  case rts => cases ht; exact h.cpu _ _ (h.cpu _ _ (h.pull (h.pull hs)))
  case rti => cases ht; exact h.cpu _ _ (h.cpu _ _ (h.pull (h.pull (h.cpu _ _ (h.pull hs)))))
  case pha => cases ht; exact h.cpu _ _ (h.push _ hs)
  case php => cases ht; exact h.cpu _ _ (h.push _ hs)
  case pla => cases ht; exact h.cpu _ _ (h.cpu _ _ (h.cpu _ _ (h.pull hs)))
  case illegal => cases ht; exact h.cpu _ _ hs
  case plp => cases ht; exact h.cpu _ _ (h.cpu _ _ (h.pull hs))
  all_goals cases ht; exact h.cpu _ _ (h.cpu _ _ hs)

end kept

/-- The bus operations change only the CPU and what CPU reads and writes can change. -/
theorem sameButBus_kept (s : State) : KeptByBus (sameButBus s) where
  read _ a hs := sameButBus_trans hs (sameButBus_of_reads (cpuRead_frame _ a))
  write _ a d hs := sameButBus_trans hs (cpuWrite_frame _ a d)
  cpu _ c hs := sameButBus_withCpu hs c

/-- Every instruction changes only the CPU and what CPU reads and writes can change. -/
theorem exec_frame {i : Instr} {s t : State} (ht : exec i s = .next t) : sameButBus s t :=
  (sameButBus_kept s).exec (sameButBus_refl s) ht

theorem enter_frame (vector : Addr) (b : Bool) (s : State) : sameButBus s (enter vector b s) :=
  (sameButBus_kept s).enter vector b (sameButBus_refl s)

/-! ## The count of an instruction -/

/-- Base counts by group: 2 to 7, and at most 6 where one more may be added for a page. -/
theorem row_base (i : Instr) : i.row.mnemonic ≠ .illegal →
    2 ≤ i.row.base ∧ i.row.base ≤ 7 ∧ (i.row.mnemonic ∈ readers → i.row.base ≤ 6) := by
  cases i <;> simp [Instr.row]

/-- The parameter gives every illegal opcode 1 to 8 ticks (R8). -/
theorem illegalCycles_bounds (p : Params) (op : Byte) : 1 ≤ illegalCycles p op ∧ illegalCycles p op ≤ 8 := by
  have := (p.illegalCycles.getD op.toNat 0).isLt
  unfold illegalCycles
  omega

/-- Every instruction takes 1 to 8 CPU ticks (R27). -/
theorem exec_count {i : Instr} {s t : State} (ht : exec i s = .next t) : 1 ≤ t.cpu.cycles ∧ t.cpu.cycles ≤ 8 := by
  have hb := row_base i
  by_cases hr : i.row.mnemonic ∈ readers
  · rw [exec_reads hr] at ht
    cases ht
    have hb := hb fun h => by rw [h] at hr; simp at hr
    have := hb.2.2 hr
    dsimp only
    split <;> omega
  by_cases hm : i.row.mnemonic ∈ modifiers
  · rw [exec_modifies hm] at ht
    have hb := hb fun h => by rw [h] at hm; simp at hm
    by_cases ho : i.row.operand = .acc
    · rw [ho, modifyInstr_acc] at ht; cases ht; dsimp only; omega
    · rw [modifyInstr_eq _ _ _ ho] at ht; cases ht; dsimp only; omega
  rw [exec_eq_meaning] at ht
  generalize i.row = r at hb ht hr hm
  obtain ⟨op, mn, o, base⟩ := r
  have fin : ∀ n u, finish n u = .next t → 1 ≤ n ∧ n ≤ 8 → 1 ≤ t.cpu.cycles ∧ t.cpu.cycles ≤ 8 := by
    intro n u h hn
    cases h
    exact hn
  have branch : ∀ taken d, branchInstr taken d s = .next t → 1 ≤ t.cpu.cycles ∧ t.cpu.cycles ≤ 8 := by
    intro taken d h
    rw [branchInstr_eq] at h
    cases h
    cases taken
    · simp
    · simp only [if_true]; split <;> omega
  cases mn
  case illegal => exact fin _ _ ht (illegalCycles_bounds _ _)
  case jmp => exact fin _ _ ht (by have hb := hb (by simp); dsimp only at hb ⊢; omega)
  case jsr => exact fin 6 _ ht (by decide)
  all_goals
    first
    | (simp at hr; done)
    | (simp at hm; done)
    | exact fin _ _ ht (by have hb := hb (by simp); dsimp only at hb ⊢; omega)
    | exact branch _ _ ht

end Sys2Proof.Machine
end

