-- ==== Sys2Proof/Laws/Render.lean ====
section
/-! SUPPORT. What a PPU tick changes and leaves alone, step by step (R340), and the records of the sprite buffer. -/

namespace Sys2Proof.Machine

/-- The second PPU differs from the first at most in the background and sprite pipelines, `v`, the status bits and the count of
free values: what steps 1a to 1g of R340 can change. -/
def sameButPipelines (p q : Ppu) : Prop :=
  q = { p with
    status := q.status, v := q.v
    bgNextId := q.bgNextId, bgNextAttr := q.bgNextAttr, bgNextLsb := q.bgNextLsb, bgNextMsb := q.bgNextMsb
    bgPatLo := q.bgPatLo, bgPatHi := q.bgPatHi, bgAttrLo := q.bgAttrLo, bgAttrHi := q.bgAttrHi
    spr := q.spr, sprCount := q.sprCount, zeroPossible := q.zeroPossible, freeCount := q.freeCount }

theorem sameButPipelines_refl (p : Ppu) : sameButPipelines p p := rfl

theorem sameButPipelines_trans {p q r : Ppu} (h1 : sameButPipelines p q) (h2 : sameButPipelines q r) :
    sameButPipelines p r := by
  unfold sameButPipelines at h1 h2
  rw [h1] at h2
  exact h2

theorem sameButPipelines_onlyIf {c : Prop} [Decidable c] {f : Ppu → Ppu} {p q : Ppu}
    (hf : ∀ r, sameButPipelines r (f r)) (h : sameButPipelines p q) : sameButPipelines p (onlyIf c f q) := by
  unfold onlyIf
  split
  · exact sameButPipelines_trans h (hf q)
  · exact h

section steps
variable (cart : Option Cartridge) (gray : BitVec 6) (sl : Int) (k cy : Nat) (p : Ppu)

theorem clearAtPreRender_frame : sameButPipelines p (clearAtPreRender p) := rfl
theorem shiftBackground_frame : sameButPipelines p (shiftBackground p) := by unfold shiftBackground; split <;> rfl
theorem shiftSprites_frame : sameButPipelines p (shiftSprites cy p) := by unfold shiftSprites; split <;> rfl
theorem loadBackgroundShifters_frame : sameButPipelines p (loadBackgroundShifters p) := rfl
theorem incrementScrollX_frame : sameButPipelines p (incrementScrollX p) := by unfold incrementScrollX; split <;> rfl
theorem incrementScrollY_frame : sameButPipelines p (incrementScrollY p) := by unfold incrementScrollY; split <;> rfl
theorem transferX_frame : sameButPipelines p (transferX p) := by unfold transferX; split <;> rfl
theorem transferY_frame : sameButPipelines p (transferY p) := by unfold transferY; split <;> rfl
theorem spriteEvaluation_frame : sameButPipelines p (spriteEvaluation sl p) := rfl
theorem spriteFetch_frame : sameButPipelines p (spriteFetch cart gray sl p) := rfl

theorem fetchStep_frame : sameButPipelines p (fetchStep cart gray k p) := by
  unfold fetchStep
  split; · rfl
  split; · rfl
  split; · rfl
  split; · rfl
  split
  · exact incrementScrollX_frame p
  · rfl

/-- Steps 1a to 1g of R340. -/
theorem renderSteps_frame : sameButPipelines p (renderSteps cart gray sl cy p) := by
  unfold renderSteps
  refine sameButPipelines_onlyIf (fun q => spriteFetch_frame cart gray sl q) ?_
  refine sameButPipelines_onlyIf (fun q => spriteEvaluation_frame sl q) ?_
  refine sameButPipelines_onlyIf (fun q => transferY_frame q) ?_
  refine sameButPipelines_onlyIf
    (fun q => sameButPipelines_trans (loadBackgroundShifters_frame q) (transferX_frame _)) ?_
  refine sameButPipelines_onlyIf (fun q => incrementScrollY_frame q) ?_
  refine sameButPipelines_onlyIf (fun q => sameButPipelines_trans (shiftBackground_frame q)
    (sameButPipelines_trans (shiftSprites_frame cy _) (fetchStep_frame cart gray _ _))) ?_
  exact sameButPipelines_onlyIf (fun q => clearAtPreRender_frame q) (sameButPipelines_refl p)

/-! ## The tick as its four parts -/

/-- The PPU after step 1 of a tick. -/
def afterRender : Ppu := onlyIf (-1 ≤ p.scanline ∧ p.scanline ≤ 239) (renderSteps cart gray p.scanline p.cycle) p

/-- The PPU after steps 1 and 2 of a tick. -/
def afterBlank : Ppu := onlyIf (p.scanline = 241 ∧ p.cycle = 1) startVerticalBlank (afterRender cart gray p)

/-- The PPU after steps 1 to 3 of a tick. -/
def afterCompose : Ppu :=
  onlyIf (0 ≤ p.scanline ∧ p.scanline ≤ 239 ∧ 1 ≤ p.cycle ∧ p.cycle ≤ 256)
    (composePixel cart gray p.scanline.toNat p.cycle) (afterBlank cart gray p)

theorem ppuTickOf_eq : ppuTickOf cart gray p = advanceCounters (afterCompose cart gray p) := rfl

theorem afterRender_frame : sameButPipelines p (afterRender cart gray p) :=
  sameButPipelines_onlyIf (fun q => renderSteps_frame cart gray _ _ q) (sameButPipelines_refl p)

/-- What a tick can change (R340): the pipelines, the status bits and `v`, the picture, the requests and the counters. -/
theorem ppuTickOf_frame :
    ppuTickOf cart gray p =
      (let q := ppuTickOf cart gray p
       { p with
         status := q.status, v := q.v
         bgNextId := q.bgNextId, bgNextAttr := q.bgNextAttr, bgNextLsb := q.bgNextLsb, bgNextMsb := q.bgNextMsb
         bgPatLo := q.bgPatLo, bgPatHi := q.bgPatHi, bgAttrLo := q.bgAttrLo, bgAttrHi := q.bgAttrHi
         spr := q.spr, sprCount := q.sprCount, zeroPossible := q.zeroPossible, freeCount := q.freeCount
         scanline := q.scanline, cycle := q.cycle, frameComplete := q.frameComplete, nmiRequest := q.nmiRequest
         frame := q.frame }) := by
  have hr := afterRender_frame cart gray p
  unfold sameButPipelines at hr
  rw [ppuTickOf_eq]
  unfold afterCompose afterBlank
  generalize afterRender cart gray p = r at hr
  rw [hr]
  unfold onlyIf advanceCounters composePixel startVerticalBlank
  split <;> split <;> (try split) <;> (try split) <;> rfl

/-- The counters advance, and nothing else (R371). -/
theorem advanceCounters_frame : advanceCounters p =
    { p with
      cycle := (advanceCounters p).cycle, scanline := (advanceCounters p).scanline
      frameComplete := (advanceCounters p).frameComplete } := by
  unfold advanceCounters
  split
  · split <;> rfl
  · rfl

/-- Where a tick leaves the raster and the frame-complete latch: it depends on nothing else of the PPU (R371). -/
theorem ppuTickOf_raster :
    ((ppuTickOf cart gray p).scanline, (ppuTickOf cart gray p).cycle, (ppuTickOf cart gray p).frameComplete) =
      if p.cycle + 1 = 341 then
        if p.scanline + 1 = 261 then (-1, 0, true) else (p.scanline + 1, 0, p.frameComplete)
      else (p.scanline, p.cycle + 1, p.frameComplete) := by
  have h := afterRender_frame cart gray p
  unfold sameButPipelines at h
  have h1 : (afterCompose cart gray p).scanline = p.scanline := by
    have := congrArg (fun x => x.scanline) h
    unfold afterCompose afterBlank onlyIf
    split <;> split <;> exact this
  have h2 : (afterCompose cart gray p).cycle = p.cycle := by
    have := congrArg (fun x => x.cycle) h
    unfold afterCompose afterBlank onlyIf
    split <;> split <;> exact this
  have h3 : (afterCompose cart gray p).frameComplete = p.frameComplete := by
    have := congrArg (fun x => x.frameComplete) h
    unfold afterCompose afterBlank onlyIf
    split <;> split <;> exact this
  rw [ppuTickOf_eq]
  unfold advanceCounters
  rw [h1, h2]
  split
  · split <;> simp [h3]
  · simp [h3]

end steps

/-! ## The length of the sprite buffer -/

theorem loadSprites_length (cart : Option Cartridge) (gray : BitVec 6) (p : Ppu) (sl : Int) (n : Nat) (l : List Sprite) :
    (loadSprites cart gray p sl n l).length = l.length := by
  induction l generalizing n with
  | nil => rfl
  | cons s l ih => simp [loadSprites, ih]

theorem shiftSprites_length (cy : Nat) (p : Ppu) : (shiftSprites cy p).spr.length = p.spr.length := by
  unfold shiftSprites
  split
  · simp only [List.length_append, List.length_map, List.length_take, List.length_drop]
    omega
  · rfl

theorem spriteFetch_length (cart : Option Cartridge) (gray : BitVec 6) (sl : Int) (p : Ppu) :
    (spriteFetch cart gray sl p).spr.length = p.spr.length := by
  simp only [spriteFetch, List.length_append, loadSprites_length, List.length_take, List.length_drop]
  omega

theorem spriteEvaluation_length (sl : Int) (p : Ppu) : (spriteEvaluation sl p).spr.length = 8 := by
  simp only [spriteEvaluation, List.length_append, List.length_map, List.length_take, List.length_replicate]
  omega

end Sys2Proof.Machine
end

