-- ==== Sys2Proof/Laws/Tick.lean ====
section
/-! SUPPORT. The CPU tick, the Bus tick and the host's calls: which decoded instruction a tick runs, and what each part keeps. -/

namespace Sys2Proof.Machine

/-! ## Fetch -/

/-- The fetch gives the instruction that the bytes at PC decode to (R151, R123). -/
theorem fetch_of_decode {s code : State} {n : Nat} {bytes : List Byte} {i : Instr} (h : readCodes n s = (bytes, code))
    (hd : decode bytes = some (i, [])) : fetch s = (i, code) := by
  match n with
  | 0 => cases h; cases hd
  | n + 1 =>
    cases h
    simp only [decode] at hd
    unfold fetch instrOf operandCount
    dsimp only
    generalize opcodeShape (readCode s).1 = sh at hd ⊢
    match n, sh with
    | 0, .len1 i => simp [readCodes] at hd ⊢; exact hd
    | 0, .len2 f => simp [readCodes] at hd
    | 0, .len3 f => simp [readCodes] at hd
    | 1, .len1 i => simp [readCodes] at hd
    | 1, .len2 f => simp [readCodes] at hd ⊢; exact hd
    | 1, .len3 f => simp [readCodes] at hd
    | 2, .len1 i => simp [readCodes] at hd
    | 2, .len2 f => simp [readCodes] at hd
    | 2, .len3 f => simp [readCodes] at hd ⊢; exact hd
    | n + 3, .len1 i => simp [readCodes] at hd
    | n + 3, .len2 f => simp [readCodes] at hd
    | n + 3, .len3 f => simp [readCodes] at hd

section kept
variable {I : State → Prop} (h : KeptByBus I)
include h

theorem KeptByBus.readCode {s : State} (hs : I s) : I (readCode s).2 := h.cpu _ _ (h.read _ _ hs)

theorem KeptByBus.fetch {s : State} (hs : I s) : I (fetch s).2 := by
  unfold Machine.fetch
  dsimp only
  split
  · exact h.readCode hs
  split
  · exact h.readCode (h.readCode hs)
  · exact h.readCode (h.readCode (h.readCode hs))

/-- A CPU tick keeps what the bus operations keep. -/
theorem KeptByBus.cpuTick {s t : State} (hs : I s) (ht : cpuTick s = .next t) : I t := by
  unfold Machine.cpuTick at ht
  split at ht
  · obtain ⟨u, hu⟩ := exec_next (Machine.fetch s).1 (Machine.fetch s).2
    dsimp only at ht
    rw [hu] at ht
    cases ht
    exact h.cpu _ _ (h.exec (h.fetch hs) hu)
  · cases ht
    exact h.cpu _ _ hs

theorem KeptByBus.cpuReset {s : State} (hs : I s) : I (cpuReset s) := h.cpu _ _ (h.memRead2 _ hs)
theorem KeptByBus.raiseNmi {s : State} (hs : I s) : I (raiseNmi s) := h.cpu _ _ (h.enter _ _ hs)

theorem KeptByBus.raiseIrq {s : State} (hs : I s) : I (raiseIrq s) := by
  unfold Machine.raiseIrq
  split
  · exact hs
  · exact h.cpu _ _ (h.enter _ _ hs)

end kept

/-- A CPU tick always goes on (R442). -/
theorem cpuTick_next (s : State) : ∃ t, cpuTick s = .next t := by
  unfold cpuTick
  split
  · obtain ⟨u, hu⟩ := exec_next (fetch s).1 (fetch s).2
    exact ⟨_, by dsimp only; rw [hu]; rfl⟩
  · exact ⟨_, rfl⟩

theorem cpuTick_frame {s t : State} (ht : cpuTick s = .next t) : sameButBus s t :=
  (sameButBus_kept s).cpuTick (sameButBus_refl s) ht

/-- While cycles remain, a CPU tick only counts down (R150). -/
theorem cpuTick_countDown {s : State} (h : s.cpu.cycles ≠ 0) :
    cpuTick s = .next { s with cpu := { s.cpu with cycles := s.cpu.cycles - 1 } } := by
  unfold cpuTick
  rw [if_neg h]
  rfl

/-! ## The PPU tick on the state -/

theorem ppuTick_eq (s : State) : ppuTick s = { s with ppu := ppuTickOf s.cart s.params.grayMask s.ppu } := rfl

/-! ## The CPU slot and the end of a Bus tick -/

/-- A CPU slot always goes on. -/
theorem cpuSlot_next (s : State) : ∃ t, cpuSlot s = .next t := by
  unfold cpuSlot
  split
  · split
    · exact ⟨_, rfl⟩
    · exact cpuTick_next s
  · exact ⟨_, rfl⟩

/-- A Bus tick always goes on. -/
theorem busTick_next (s : State) : ∃ t, busTick s = .next t := by
  obtain ⟨t, ht⟩ := cpuSlot_next (ppuTick s)
  exact ⟨_, by unfold busTick; rw [ht]; rfl⟩

/-- A Bus tick as its slot and its end. -/
theorem busTick_of_slot {s t : State} (h : cpuSlot (ppuTick s) = .next t) : busTick s = .next (endBusTick t) := by
  unfold busTick
  rw [h]
  rfl

/-- The slot of a Bus tick, from its result. -/
theorem busTick_cases {s u : State} (h : busTick s = .next u) :
    ∃ t, cpuSlot (ppuTick s) = .next t ∧ u = endBusTick t := by
  obtain ⟨t, ht⟩ := cpuSlot_next (ppuTick s)
  rw [busTick_of_slot ht] at h
  exact ⟨t, ht, by cases h; rfl⟩

/-- A slot is a DMA micro-step, a CPU tick, or nothing (R400). -/
theorem cpuSlot_cases {s t : State} (h : cpuSlot s = .next t) :
    (s.bus.clock % 3 = 0 ∧ s.bus.dmaTransfer = true ∧ t = dmaStep s) ∨
    (s.bus.clock % 3 = 0 ∧ s.bus.dmaTransfer = false ∧ cpuTick s = .next t) ∨ (s.bus.clock % 3 ≠ 0 ∧ t = s) := by
  unfold cpuSlot at h
  split at h
  · rename_i h3
    split at h
    · rename_i hd
      cases h
      exact .inl ⟨h3, hd, rfl⟩
    · rename_i hd
      exact .inr (.inl ⟨h3, Bool.eq_false_iff.mpr hd, h⟩)
  · rename_i h3
    cases h
    exact .inr (.inr ⟨h3, rfl⟩)

/-- The end of a Bus tick delivers the request and advances the clock (R400, R402). -/
theorem endBusTick_cases (s : State) :
    (s.ppu.nmiRequest = false ∧ endBusTick s = { s with bus := { s.bus with clock := s.bus.clock + 1 } }) ∨
    (s.ppu.nmiRequest = true ∧
      ∃ n, n = raiseNmi { s with ppu := { s.ppu with nmiRequest := false } } ∧
        endBusTick s = { n with bus := { n.bus with clock := n.bus.clock + 1 } }) := by
  unfold endBusTick
  cases h : s.ppu.nmiRequest
  · exact .inl ⟨rfl, by simp [State.setBus]⟩
  · exact .inr ⟨rfl, _, rfl, by simp [State.setBus, State.setPpu]⟩

/-! ## The host's calls -/

/-- A step with no call waiting is a Bus tick, when a cartridge is inserted. -/
theorem step_busTick {s : State} (hc : s.calls = []) (hk : s.cart.isSome = true) : step s = busTick s := by
  have hn : s.cart.isNone = false := by cases h : s.cart <;> simp_all
  simp only [step, nextCall, hc, hostCall, hn, Bool.and_false, Bool.false_eq_true, if_false, makeCall]

/-- A step with a call waiting makes the oldest one. -/
theorem step_call {s : State} {c : HostCall} {rest : List HostCall} (hc : s.calls = c :: rest)
    (hk : (needsCartridge c && s.cart.isNone) = false) : step s = makeCall c { s with calls := rest } := by
  simp only [step, nextCall, hc, hostCall, hk, Bool.false_eq_true, if_false]

/-- What a step that goes on did: one call, the oldest waiting one or a Bus tick. -/
theorem step_cases {s t : State} (h : step s = .next t) :
    ∃ (c : HostCall) (rest : List HostCall), (s.calls = c :: rest ∨ (s.calls = [] ∧ c = .busTick ∧ rest = [])) ∧
      callAllowed c s = true ∧ makeCall c { s with calls := rest } = .next t := by
  have key : ∀ (c : HostCall) (u : State), hostCall c u = .next t → (needsCartridge c && u.cart.isNone) = false ∧
      makeCall c u = .next t := fun c u hu => by
    unfold hostCall at hu
    split at hu
    · cases hu
    · rename_i hn
      exact ⟨Bool.eq_false_iff.mpr hn, hu⟩
  have allowed : ∀ (c : HostCall) (u : State), (needsCartridge c && u.cart.isNone) = false → makeCall c u = .next t →
      callAllowed c u = true := fun c u h1 h2 => by
    unfold callAllowed
    rw [h1]
    cases c with
    | insertCartridge cart =>
      simp only [makeCall] at h2
      split at h2
      · rename_i hw
        simpa using hw
      · cases h2
    | _ => rfl
  unfold step nextCall at h
  split at h
  · rename_i hc
    obtain ⟨h1, h2⟩ := key _ _ h
    have e : ({ s with calls := [] } : State) = s := by rw [← hc]
    exact ⟨.busTick, [], .inr ⟨hc, rfl, rfl⟩, allowed _ _ h1 h2, by rw [e]; exact h2⟩
  · rename_i c rest hc
    obtain ⟨h1, h2⟩ := key _ _ h
    exact ⟨c, rest, .inl hc, allowed c { s with calls := rest } h1 h2, h2⟩

end Sys2Proof.Machine
end

