-- ==== Sys2Proof/Laws/Keep.lean ====
section
/-! SUPPORT. Every operation that writes a memory keeps the memories canonical and inside their sizes; so do the other invariants,
operation by operation. -/

namespace Sys2Proof

/-- A memory filled from a list of bytes is canonical, and its cells lie where the bytes were put. -/
theorem Memory.ofBytes_wf (k : Nat) (bytes : List Byte) :
    (Memory.ofBytes k bytes).wf = true ∧ ∀ c ∈ Memory.ofBytes k bytes, k ≤ c.1 ∧ c.1 < k + bytes.length := by
  induction bytes generalizing k with
  | nil => exact ⟨rfl, by simp [Memory.ofBytes]⟩
  | cons b rest ih =>
    obtain ⟨h1, h2⟩ := ih (k + 1)
    simp only [Memory.wf, Bool.and_eq_true, Memory.rising_iff_pairwise, Memory.noZero, List.all_eq_true] at h1
    by_cases hb : b = 0
    · simp only [Memory.ofBytes, hb, if_true]
      refine ⟨by simpa only [Memory.wf, Bool.and_eq_true, Memory.rising_iff_pairwise, Memory.noZero,
        List.all_eq_true] using h1, fun c hc => ?_⟩
      have := h2 c hc
      simp only [List.length_cons]
      omega
    · simp only [Memory.ofBytes, hb, if_false]
      refine ⟨?_, fun c hc => ?_⟩
      · simp only [Memory.wf, Bool.and_eq_true, Memory.rising_iff_pairwise, Memory.noZero, List.all_eq_true]
        refine ⟨List.pairwise_cons.mpr ⟨fun c hc => ?_, h1.1⟩, fun c hc => ?_⟩
        · have := h2 c hc
          show k < c.1
          omega
        · rcases List.mem_cons.mp hc with rfl | hc
          · simpa using hb
          · exact h1.2 c hc
      · simp only [List.length_cons]
        rcases List.mem_cons.mp hc with rfl | hc
        · dsimp only; omega
        · have := h2 c hc
          omega

/-- A memory filled with at most `n` bytes is well formed for size `n`. -/
theorem Memory.ofBytes_wfOf {n : Nat} {bytes : List Byte} (h : bytes.length ≤ n) :
    Memory.wfOf n (Memory.ofBytes 0 bytes) = true := by
  obtain ⟨h1, h2⟩ := Memory.ofBytes_wf 0 bytes
  simp only [Memory.wfOf, Bool.and_eq_true, Memory.below, List.all_eq_true, decide_eq_true_eq]
  exact ⟨h1, fun c hc => by have := h2 c hc; omega⟩

/-- A cartridge built from an image is well formed (R81). -/
theorem Cartridge.ofImage_wf {image : List Byte} {c : Cartridge} (h : Cartridge.ofImage image = .ok c) : c.wf = true := by
  unfold Cartridge.ofImage at h
  dsimp only at h
  generalize 16 + (if (image.getD 6 0).getLsbD 2 then 512 else 0) = start at h
  split at h; · cases h
  split at h; · cases h
  split at h; · cases h
  split at h; · cases h
  rename_i hp
  cases h
  simp only [Cartridge.wf, Bool.and_eq_true, decide_eq_true_eq]
  refine ⟨⟨by omega, ?_⟩, ?_⟩
  · exact Memory.ofBytes_wfOf (by rw [List.length_take]; omega)
  · exact Memory.ofBytes_wfOf (by rw [List.length_take]; omega)

/-- The offset in the PRG image is inside it (R79). -/
theorem Cartridge.prgOffset_lt {c : Cartridge} (h : c.wf = true) (a : Addr) : c.prgOffset a < 16384 * c.prgBanks := by
  simp only [Cartridge.wf, Bool.and_eq_true, decide_eq_true_eq] at h
  rw [Cartridge.prgOffset_eq]
  split <;> omega

namespace Machine

/-! ## The PPU's memories -/

/-- `PalIndex` never gives one of the aliased entries (R324). -/
theorem palIndex_live (a : BitVec 14) :
    palIndex a < 32 ∧ palIndex a ≠ 0x10 ∧ palIndex a ≠ 0x14 ∧ palIndex a ≠ 0x18 ∧ palIndex a ≠ 0x1C := by
  unfold palIndex
  have : (a &&& 0x1F).toNat = a.toNat % 32 := by
    rw [BitVec.toNat_and]; exact Nat.and_two_pow_sub_one_eq_mod a.toNat 5
  dsimp only
  rw [this]
  split <;> omega

/-- An offset in a nametable bank (R323). -/
theorem nametableOffset_lt (a : BitVec 14) : (a &&& 0x03FF).toNat < 1024 := by
  rw [nametableOffset_eq]
  omega

/-- A palette write keeps the palette's own conditions. -/
theorem palette_write {m : Memory} (a : BitVec 14) (d : Byte)
    (h : Memory.wfOf 32 m = true ∧ m.read 0x10 = 0 ∧ m.read 0x14 = 0 ∧ m.read 0x18 = 0 ∧ m.read 0x1C = 0) :
    let n := m.write (palIndex a) d
    Memory.wfOf 32 n = true ∧ n.read 0x10 = 0 ∧ n.read 0x14 = 0 ∧ n.read 0x18 = 0 ∧ n.read 0x1C = 0 := by
  obtain ⟨p1, p2, p3, p4, p5⟩ := palIndex_live a
  refine ⟨Memory.wfOf_write h.1 p1 d, ?_, ?_, ?_, ?_⟩
  · rw [Memory.read_write_other _ _ p2.symm]; exact h.2.1
  · rw [Memory.read_write_other _ _ p3.symm]; exact h.2.2.1
  · rw [Memory.read_write_other _ _ p4.symm]; exact h.2.2.2.1
  · rw [Memory.read_write_other _ _ p5.symm]; exact h.2.2.2.2

theorem ppuWrite_memoriesOk (cart : Option Cartridge) {p : Ppu} (a : Addr) (d : Byte) (h : p.MemoriesOk) :
    (ppuWrite cart p a d).MemoriesOk := by
  obtain ⟨h0, h1, hp, ho, ht, hf, hc, l⟩ := h
  unfold ppuWrite
  dsimp only
  split
  · exact ⟨h0, h1, hp, ho, ht, hf, hc, l⟩
  split
  · exact ⟨h0, h1, hp, ho, Memory.wfOf_write ht (by omega) d, hf, hc, l⟩
  split
  · split
    · exact ⟨h0, Memory.wfOf_write h1 (nametableOffset_lt _) d, hp, ho, ht, hf, hc, l⟩
    · exact ⟨Memory.wfOf_write h0 (nametableOffset_lt _) d, h1, hp, ho, ht, hf, hc, l⟩
  · obtain ⟨q, q'⟩ := palette_write (a.setWidth 14) d ⟨hp, l⟩
    exact ⟨h0, h1, q, ho, ht, hf, hc, q'⟩

/-- The condition looks at the memories only. -/
theorem memoriesOk_congr {p q : Ppu} (h : p.MemoriesOk) (h0 : q.nt0 = p.nt0) (h1 : q.nt1 = p.nt1) (hp : q.pal = p.pal)
    (ho : q.oam = p.oam) (ht : q.pat = p.pat) (hf : q.frame = p.frame) : q.MemoriesOk := by
  unfold Ppu.MemoriesOk
  rw [h0, h1, hp, ho, ht, hf]
  exact h

theorem oamWrite_memoriesOk {p : Ppu} (h : p.MemoriesOk) (k : Byte) (d : Byte) :
    ({ p with oam := p.oam.write k.toNat d } : Ppu).MemoriesOk := by
  obtain ⟨h0, h1, hp, ho, ht⟩ := h
  exact ⟨h0, h1, hp, Memory.wfOf_write ho k.isLt d, ht⟩

theorem ppuPortWrite_memoriesOk (cart : Option Cartridge) {p : Ppu} (port : BitVec 3) (d : Byte) (h : p.MemoriesOk) :
    (ppuPortWrite cart p port d).MemoriesOk := by
  unfold ppuPortWrite writeControl writeScroll writeAddress writeDataPort
  split; · exact memoriesOk_congr h rfl rfl rfl rfl rfl rfl
  split; · exact memoriesOk_congr h rfl rfl rfl rfl rfl rfl
  split; · exact memoriesOk_congr h rfl rfl rfl rfl rfl rfl
  split; · exact oamWrite_memoriesOk h _ d
  split; · split <;> exact memoriesOk_congr h rfl rfl rfl rfl rfl rfl
  split; · split <;> exact memoriesOk_congr h rfl rfl rfl rfl rfl rfl
  split
  · exact memoriesOk_congr (ppuWrite_memoriesOk cart (dataAddress p) d h) rfl rfl rfl rfl rfl rfl
  · exact h

theorem ppuPortRead_memoriesOk (cart : Option Cartridge) (gray : BitVec 6) {p : Ppu} (port : BitVec 3) (h : p.MemoriesOk) :
    (ppuPortRead cart gray p port).2.MemoriesOk :=
  memoriesOk_congr h (by simp) (by simp) (by simp) (by simp) (by simp) (by simp)

/-- The colour of a pixel is a 6-bit index (R49, R320). -/
theorem paletteRead_lt (cart : Option Cartridge) (gray : BitVec 6) (p : Ppu) {a : Addr} (h : 0x3F00 ≤ a.toNat % 0x4000) :
    (ppuRead cart gray p a).toNat < 64 := by
  have ha : (a.setWidth 14 : BitVec 14).toNat = a.toNat % 0x4000 := by simp
  have hc : (cart.bind fun c => c.ppuRead (a.setWidth 14 : BitVec 14).toNat) = none := by
    rw [ha]
    cases cart with
    | none => rfl
    | some c =>
      show c.ppuRead _ = none
      unfold Cartridge.ppuRead
      rw [if_neg (by omega)]
  have hm : (paletteMask gray p).toNat ≤ 63 := by
    unfold paletteMask
    split
    · have := gray.isLt
      rw [BitVec.toNat_setWidth]
      omega
    · decide
  unfold ppuRead
  dsimp only
  rw [hc]
  dsimp only
  rw [if_neg (by omega), if_neg (by omega), BitVec.toNat_and]
  exact Nat.lt_of_le_of_lt Nat.and_le_right (by omega)

theorem pixelAddress_toNat (q : Pixel) : (pixelAddress q).toNat = 0x3F00 + 4 * q.pal.toNat + q.px.toNat := by
  have key : ∀ (pal : BitVec 3) (px : BitVec 2),
      ((0x3F00 : Addr) + 4 * pal.setWidth 16 + px.setWidth 16).toNat = 0x3F00 + 4 * pal.toNat + px.toNat := by decide
  exact key q.pal q.px

theorem composePixel_memoriesOk (cart : Option Cartridge) (gray : BitVec 6) {row cy : Nat} {p : Ppu} (hr : row ≤ 239)
    (hc : cy ≤ 256) (h : p.MemoriesOk) : (composePixel cart gray row cy p).MemoriesOk := by
  obtain ⟨h0, h1, hp, ho, ht, hf, hl, l⟩ := h
  have hk : frameKey row (cy - 1) < 61440 := by unfold frameKey; omega
  refine ⟨h0, h1, hp, ho, ht, Memory.wfOf_write hf hk _, fun k => ?_, l⟩
  show ((p.frame.write _ _).read k).toNat < 64
  rw [Memory.read_write]
  split
  · apply paletteRead_lt
    have h1 := (resolvePixel (backgroundPixel p) (spritePixel p)).pal.isLt
    have h2 := (resolvePixel (backgroundPixel p) (spritePixel p)).px.isLt
    rw [pixelAddress_toNat]
    omega
  · exact hl k

/-- A PPU tick keeps the PPU's memories. -/
theorem ppuTickOf_memoriesOk (cart : Option Cartridge) (gray : BitVec 6) {p : Ppu} (h : p.MemoriesOk) :
    (ppuTickOf cart gray p).MemoriesOk := by
  have hr : (afterBlank cart gray p).MemoriesOk := by
    have := afterRender_frame cart gray p
    unfold sameButPipelines at this
    have hr : (afterRender cart gray p).MemoriesOk := by
      rw [this]
      exact memoriesOk_congr h rfl rfl rfl rfl rfl rfl
    unfold afterBlank onlyIf
    split
    · exact memoriesOk_congr hr rfl rfl rfl rfl rfl rfl
    · exact hr
  have hc : (afterCompose cart gray p).MemoriesOk := by
    unfold afterCompose onlyIf
    split
    · exact composePixel_memoriesOk cart gray (by omega) (by omega) hr
    · exact hr
  rw [ppuTickOf_eq]
  unfold advanceCounters
  split
  · split <;> exact memoriesOk_congr hc rfl rfl rfl rfl rfl rfl
  · exact memoriesOk_congr hc rfl rfl rfl rfl rfl rfl

/-! ## The bus -/

/-- CPU reads and writes keep the PPU's memories and RAM. -/
theorem memoriesOk_kept : KeptByBus fun s => s.ppu.MemoriesOk ∧ s.bus.MemoryOk where
  read s a h := by
    refine ⟨memoriesOk_congr h.1 (by simp) (by simp) (by simp) (by simp) (by simp) (by simp), ?_⟩
    unfold Bus.MemoryOk
    rw [cpuRead_bus_ram]
    exact h.2
  write s a d h := by
    have masked : (a &&& 0x07FF).toNat < 2048 := by rw [ramOffset_eq]; omega
    unfold cpuWrite
    split; · exact h
    split; · exact ⟨h.1, Memory.wfOf_write h.2 masked d⟩
    split; · exact ⟨ppuPortWrite_memoriesOk s.cart _ d h.1, h.2⟩
    split; · exact h
    split; · exact h
    split <;> exact h
  cpu _ _ h := h

/-- A DMA micro-step keeps the PPU's memories and RAM. -/
theorem dmaStep_memoriesOk {s : State} (h : s.ppu.MemoriesOk ∧ s.bus.MemoryOk) :
    (dmaStep s).ppu.MemoriesOk ∧ (dmaStep s).bus.MemoryOk := by
  unfold dmaStep
  split
  · split <;> exact h
  split
  · exact memoriesOk_kept.read s _ h
  · dsimp only
    split <;> exact ⟨oamWrite_memoriesOk h.1 _ _, h.2⟩

/-- Placing a byte of a program keeps the cartridge and RAM well formed. -/
theorem placeByte_ok (a : Addr) (b : Byte) {s : State} (hb : s.bus.MemoryOk) (hc : s.CartridgeOk) :
    (placeByte a b s).bus.MemoryOk ∧ (placeByte a b s).CartridgeOk := by
  have masked : (a &&& 0x07FF).toNat < 2048 := by rw [ramOffset_eq]; omega
  unfold placeByte
  split
  · split
    · rename_i c hs
      refine ⟨hb, fun c' hc' => ?_⟩
      cases hc'
      have w := hc c hs
      have o := Cartridge.prgOffset_lt w a
      simp only [Cartridge.wf, Bool.and_eq_true, decide_eq_true_eq] at w ⊢
      exact ⟨⟨w.1.1, Memory.wfOf_write w.1.2 o b⟩, w.2⟩
    · exact ⟨hb, hc⟩
  · exact ⟨Memory.wfOf_write hb masked b, hc⟩

/-- The memories of the reset state are canonical. -/
theorem reset_memoriesOk : State.reset.ppu.MemoriesOk ∧ State.reset.bus.MemoryOk :=
  ⟨⟨rfl, rfl, rfl, rfl, rfl, rfl, fun _ => Nat.zero_lt_succ 63, rfl, rfl, rfl, rfl⟩, rfl⟩

end Machine

end Sys2Proof
end

