-- ==== Sys2Proof/Laws/Schedule.lean ====
section
/-! SUPPORT. What a PPU tick does at each raster position (R340): for the background pipeline, for the sprite buffer and the
status bits, and for the steps 1a to 1g they come from, so that no later proof unfolds `renderSteps`. -/

namespace Sys2Proof.Machine

theorem onlyIf_pos {c : Prop} [Decidable c] (h : c) (f : Ppu → Ppu) (p : Ppu) : onlyIf c f p = f p := if_pos h
theorem onlyIf_neg {c : Prop} [Decidable c] (h : ¬c) (f : Ppu → Ppu) (p : Ppu) : onlyIf c f p = p := if_neg h

/-- A step that keeps what `view` sees of the PPU keeps it also where it runs only under a condition. -/
theorem onlyIf_keeps {α : Type} (view : Ppu → α) {c : Prop} [Decidable c] (f : Ppu → Ppu)
    (h : ∀ q, view (f q) = view q) (p : Ppu) : view (onlyIf c f p) = view p := by
  unfold onlyIf
  split
  · exact h p
  · rfl

theorem onVisible_iff (p : Ppu) (a b : Nat) :
    p.onVisible a b = true ↔ 0 ≤ p.scanline ∧ p.scanline ≤ 239 ∧ a ≤ p.cycle ∧ p.cycle ≤ b := by
  simp only [Ppu.onVisible, decide_eq_true_eq]

theorem inFetchWindow_iff (p : Ppu) :
    p.inFetchWindow = true ↔ -1 ≤ p.scanline ∧ p.scanline ≤ 239 ∧
      ((2 ≤ p.cycle ∧ p.cycle ≤ 258) ∨ (321 ≤ p.cycle ∧ p.cycle ≤ 337)) := by
  simp only [Ppu.inFetchWindow, decide_eq_true_eq]

/-- What the fetches and the shifts leave of the background pipeline. -/
def backgroundOf (p : Ppu) :=
  (p.bgNextId, p.bgNextAttr, p.bgNextLsb, p.bgNextMsb, p.bgPatLo, p.bgPatHi, p.bgAttrLo, p.bgAttrHi)

/-- The sprite buffer with its count and flag, and the status bits. -/
def spritesOf (p : Ppu) := (p.spr, p.sprCount, p.zeroPossible, p.status)

section steps
variable (cart : Option Cartridge) (gray : BitVec 6) (sl : Int) (k cy : Nat) (p : Ppu)

/-- Step 1b of R340. -/
def windowStep : Ppu := fetchStep cart gray ((cy - 1) % 8) (shiftSprites cy (shiftBackground p))

theorem windowStep_frame : sameButPipelines p (windowStep cart gray cy p) :=
  sameButPipelines_trans (shiftBackground_frame p)
    (sameButPipelines_trans (shiftSprites_frame cy _) (fetchStep_frame cart gray _ _))

/-! ## What each step keeps -/

theorem incrementScrollX_background : backgroundOf (incrementScrollX p) = backgroundOf p := by
  unfold incrementScrollX; split <;> rfl
theorem incrementScrollY_background : backgroundOf (incrementScrollY p) = backgroundOf p := by
  unfold incrementScrollY; split <;> rfl
theorem transferX_background : backgroundOf (transferX p) = backgroundOf p := by unfold transferX; split <;> rfl
theorem transferY_background : backgroundOf (transferY p) = backgroundOf p := by unfold transferY; split <;> rfl

theorem incrementScrollX_sprites : spritesOf (incrementScrollX p) = spritesOf p := by
  unfold incrementScrollX; split <;> rfl
theorem incrementScrollY_sprites : spritesOf (incrementScrollY p) = spritesOf p := by
  unfold incrementScrollY; split <;> rfl
theorem transferX_sprites : spritesOf (transferX p) = spritesOf p := by unfold transferX; split <;> rfl
theorem transferY_sprites : spritesOf (transferY p) = spritesOf p := by unfold transferY; split <;> rfl
theorem shiftBackground_sprites : spritesOf (shiftBackground p) = spritesOf p := by unfold shiftBackground; split <;> rfl

theorem shiftSprites_background : backgroundOf (shiftSprites cy p) = backgroundOf p := by
  unfold shiftSprites; split <;> rfl

theorem shiftSprites_status : (shiftSprites cy p).status = p.status := by unfold shiftSprites; split <;> rfl

theorem fetchStep_sprites : spritesOf (fetchStep cart gray k p) = spritesOf p := by
  unfold fetchStep
  split; · rfl
  split; · rfl
  split; · rfl
  split; · rfl
  split
  · exact incrementScrollX_sprites p
  · rfl

theorem shiftSprites_congr {p q : Ppu} (h : spritesOf p = spritesOf q) (m : p.mask = q.mask) :
    spritesOf (shiftSprites cy p) = spritesOf (shiftSprites cy q) := by
  simp only [spritesOf, Prod.mk.injEq] at h
  obtain ⟨h1, h2, h3, h4⟩ := h
  unfold shiftSprites spritesOf
  rw [m]
  split <;> simp [h1, h2, h3, h4]

theorem windowStep_sprites : spritesOf (windowStep cart gray cy p) = spritesOf (shiftSprites cy p) := by
  unfold windowStep
  rw [fetchStep_sprites]
  exact shiftSprites_congr cy (shiftBackground_sprites p) (congrArg (fun x => x.mask) (shiftBackground_frame p))

/-- Evaluation reads OAM, the sprite size and the status, and nothing else (R360). -/
theorem spriteEvaluation_congr {p q : Ppu} (h : p.oam = q.oam) (c : p.ctrl = q.ctrl) (s : p.status = q.status) :
    spritesOf (spriteEvaluation sl p) = spritesOf (spriteEvaluation sl q) := by
  have e1 : qualifying p sl = qualifying q sl := by
    unfold qualifying
    congr 1
    funext e
    unfold spriteInRange spriteHeight
    rw [h, c]
  have e2 : oamSprite p = oamSprite q := by
    funext e
    unfold oamSprite
    rw [h]
  simp only [spriteEvaluation, spritesOf, e1, e2, s]

/-! ## Loading the shifters twice -/

theorem loadLow_toNat (r : BitVec 16) (b : Byte) : loadLow r b = BitVec.ofNat 16 (r.toNat / 256 * 256 + b.toNat) := by
  have hb := r.isLt
  have hl := b.isLt
  have hi : (r &&& 0xFF00) = BitVec.ofNat 16 (r.toNat / 256 * 256) := by
    apply BitVec.eq_of_toNat_eq
    have shape : (0xFF00 : BitVec 16).toNat = (2 ^ 8 - 1) * 2 ^ 8 := rfl
    have size : (256 : Nat) = 2 ^ 8 := rfl
    rw [BitVec.toNat_and, BitVec.toNat_ofNat, Nat.mod_eq_of_lt (by omega)]
    apply Nat.eq_of_testBit_eq
    intro i
    rw [Nat.testBit_and, shape, Nat.testBit_mul_two_pow, Nat.testBit_two_pow_sub_one, size, Nat.testBit_mul_two_pow,
      Nat.testBit_div_two_pow]
    by_cases h8 : 8 ≤ i
    · have high : ¬i < 16 → r.toNat.testBit i = false := fun h =>
        Nat.testBit_lt_two_pow (Nat.lt_of_lt_of_le hb (Nat.pow_le_pow_right (by decide) (by omega)))
      by_cases h16 : i < 16
      · simp [h8, Nat.sub_add_cancel h8, show i - 8 < 8 by omega]
      · simp [h8, Nat.sub_add_cancel h8, high h16]
    · simp [h8]
  unfold loadLow
  rw [hi]
  apply BitVec.eq_of_toNat_eq
  have size : r.toNat / 256 * 256 = 2 ^ 8 * (r.toNat / 256) := by omega
  rw [BitVec.toNat_or, BitVec.toNat_setWidth, BitVec.toNat_ofNat, BitVec.toNat_ofNat, Nat.mod_eq_of_lt (by omega),
    Nat.mod_eq_of_lt (by omega), size, ← Nat.two_pow_add_eq_or_of_lt (by omega), Nat.mod_eq_of_lt (by omega)]

theorem loadLow_loadLow (r : BitVec 16) (b : Byte) : loadLow (loadLow r b) b = loadLow r b := by
  have := r.isLt
  have := b.isLt
  rw [loadLow_toNat, loadLow_toNat]
  apply BitVec.eq_of_toNat_eq
  simp only [BitVec.toNat_ofNat]
  omega

/-- The second load of cycle 257 changes nothing (R354). -/
theorem loadBackgroundShifters_again :
    backgroundOf (loadBackgroundShifters (fetchNametable cart gray (loadBackgroundShifters p))) =
      backgroundOf (fetchNametable cart gray (loadBackgroundShifters p)) := by
  simp only [backgroundOf, loadBackgroundShifters, fetchNametable, loadLow_loadLow]

/-! ## Steps 1a to 1g -/

theorem renderSteps_background :
    backgroundOf (renderSteps cart gray sl cy p) =
      backgroundOf (if (2 ≤ cy ∧ cy ≤ 258) ∨ (321 ≤ cy ∧ cy ≤ 337) then windowStep cart gray cy p else p) := by
  unfold renderSteps
  dsimp only
  rw [onlyIf_keeps backgroundOf (spriteFetch cart gray sl) (fun _ => rfl),
    onlyIf_keeps backgroundOf (spriteEvaluation sl) (fun _ => rfl), onlyIf_keeps backgroundOf transferY transferY_background]
  by_cases w : (2 ≤ cy ∧ cy ≤ 258) ∨ (321 ≤ cy ∧ cy ≤ 337)
  · rw [onlyIf_neg (c := sl = -1 ∧ cy = 1) (by omega), onlyIf_pos w, if_pos w]
    by_cases h : cy = 257
    · subst h
      rw [onlyIf_pos rfl, transferX_background, onlyIf_neg (c := 257 = 256) (by decide)]
      exact loadBackgroundShifters_again cart gray _
    · rw [onlyIf_neg (c := cy = 257) h, onlyIf_keeps backgroundOf incrementScrollY incrementScrollY_background]
      rfl
  · rw [onlyIf_neg w, if_neg w, onlyIf_neg (c := cy = 257) (by omega),
      onlyIf_keeps backgroundOf incrementScrollY incrementScrollY_background,
      onlyIf_keeps backgroundOf clearAtPreRender (fun _ => rfl)]

/-- The PPU before steps 1f and 1g. -/
def beforeEvaluation : Ppu :=
  onlyIf (sl = -1 ∧ 280 ≤ cy ∧ cy ≤ 304) transferY
    (onlyIf (cy = 257) (fun p => transferX (loadBackgroundShifters p))
      (onlyIf (cy = 256) incrementScrollY
        (onlyIf ((2 ≤ cy ∧ cy ≤ 258) ∨ (321 ≤ cy ∧ cy ≤ 337)) (windowStep cart gray cy)
          (onlyIf (sl = -1 ∧ cy = 1) clearAtPreRender p))))

theorem renderSteps_eq : renderSteps cart gray sl cy p =
    onlyIf (cy = 340 ∧ 0 ≤ sl) (spriteFetch cart gray sl)
      (onlyIf (cy = 257 ∧ 0 ≤ sl) (spriteEvaluation sl) (beforeEvaluation cart gray sl cy p)) := rfl

theorem beforeEvaluation_frame : sameButPipelines p (beforeEvaluation cart gray sl cy p) := by
  refine sameButPipelines_onlyIf transferY_frame ?_
  refine sameButPipelines_onlyIf (fun q => sameButPipelines_trans (loadBackgroundShifters_frame q) (transferX_frame _)) ?_
  refine sameButPipelines_onlyIf incrementScrollY_frame ?_
  refine sameButPipelines_onlyIf (windowStep_frame cart gray cy) ?_
  exact sameButPipelines_onlyIf clearAtPreRender_frame (sameButPipelines_refl p)

theorem beforeEvaluation_sprites : spritesOf (beforeEvaluation cart gray sl cy p) =
    if sl = -1 ∧ cy = 1 then spritesOf (clearAtPreRender p)
    else if (2 ≤ cy ∧ cy ≤ 258) ∨ (321 ≤ cy ∧ cy ≤ 337) then spritesOf (shiftSprites cy p) else spritesOf p := by
  unfold beforeEvaluation
  rw [onlyIf_keeps spritesOf transferY transferY_sprites,
    onlyIf_keeps spritesOf (fun p => transferX (loadBackgroundShifters p)) (fun q => transferX_sprites _),
    onlyIf_keeps spritesOf incrementScrollY incrementScrollY_sprites]
  by_cases c1 : sl = -1 ∧ cy = 1
  · rw [onlyIf_pos (c := sl = -1 ∧ cy = 1) c1, onlyIf_neg (by omega), if_pos c1]
  · rw [onlyIf_neg (c := sl = -1 ∧ cy = 1) c1, if_neg c1]
    by_cases w : (2 ≤ cy ∧ cy ≤ 258) ∨ (321 ≤ cy ∧ cy ≤ 337)
    · rw [onlyIf_pos w, if_pos w, windowStep_sprites]
    · rw [onlyIf_neg w, if_neg w]

theorem renderSteps_sprites : spritesOf (renderSteps cart gray sl cy p) =
    if sl = -1 ∧ cy = 1 then spritesOf (clearAtPreRender p)
    else if cy = 257 ∧ 0 ≤ sl then spritesOf (spriteEvaluation sl p)
    else if cy = 340 ∧ 0 ≤ sl then spritesOf (spriteFetch cart gray sl p)
    else if (2 ≤ cy ∧ cy ≤ 258) ∨ (321 ≤ cy ∧ cy ≤ 337) then spritesOf (shiftSprites cy p) else spritesOf p := by
  have before := beforeEvaluation_sprites cart gray sl cy p
  have frame := beforeEvaluation_frame cart gray sl cy p
  rw [renderSteps_eq]
  by_cases c1 : cy = 340 ∧ 0 ≤ sl
  · have same : beforeEvaluation cart gray sl cy p = p := by
      unfold beforeEvaluation
      rw [onlyIf_neg (c := sl = -1 ∧ 280 ≤ cy ∧ cy ≤ 304) (by omega), onlyIf_neg (c := cy = 257) (by omega),
        onlyIf_neg (c := cy = 256) (by omega), onlyIf_neg (by omega), onlyIf_neg (by omega)]
    rw [onlyIf_pos c1, onlyIf_neg (by omega), same, if_neg (by omega), if_neg (by omega), if_pos c1]
  · rw [onlyIf_neg (c := cy = 340 ∧ 0 ≤ sl) c1]
    by_cases c2 : cy = 257 ∧ 0 ≤ sl
    · rw [onlyIf_pos c2, if_neg (by omega), if_pos c2]
      rw [if_neg (by omega), if_pos (by omega)] at before
      refine spriteEvaluation_congr sl (congrArg (fun x => x.oam) frame) (congrArg (fun x => x.ctrl) frame) ?_
      exact (congrArg (fun x => x.2.2.2) before).trans (shiftSprites_status cy p)
    · rw [onlyIf_neg (c := cy = 257 ∧ 0 ≤ sl) c2, before]
      split <;> rfl

/-! ## The tick -/

/-- The background pipeline after a tick: in the fetch windows one step of it, elsewhere nothing. -/
theorem ppuTickOf_background : backgroundOf (ppuTickOf cart gray p) =
    backgroundOf (if p.inFetchWindow then windowStep cart gray p.cycle p else p) := by
  have tail : backgroundOf (ppuTickOf cart gray p) = backgroundOf (afterRender cart gray p) := by
    rw [ppuTickOf_eq, advanceCounters_frame]
    unfold afterCompose afterBlank onlyIf backgroundOf
    dsimp only
    split <;> split <;> rfl
  rw [tail]
  unfold afterRender
  have w := inFetchWindow_iff p
  by_cases l : -1 ≤ p.scanline ∧ p.scanline ≤ 239
  · rw [onlyIf_pos l, renderSteps_background]
    by_cases h : p.inFetchWindow = true
    · rw [if_pos h, if_pos (w.mp h).2.2]
    · rw [if_neg h, if_neg (fun h' => h (w.mpr ⟨l.1, l.2, h'⟩))]
  · rw [onlyIf_neg l, if_neg (fun h => l ⟨(w.mp h).1, (w.mp h).2.1⟩)]

/-- The sprite buffer and the status after step 1 of a tick, by raster position. -/
theorem afterRender_sprites : spritesOf (afterRender cart gray p) =
    if p.scanline = -1 ∧ p.cycle = 1 then spritesOf (clearAtPreRender p)
    else if p.onVisible 257 257 then spritesOf (spriteEvaluation p.scanline p)
    else if p.onVisible 340 340 then spritesOf (spriteFetch cart gray p.scanline p)
    else if p.inFetchWindow then spritesOf (shiftSprites p.cycle p) else spritesOf p := by
  simp only [onVisible_iff, inFetchWindow_iff]
  unfold afterRender
  by_cases l : -1 ≤ p.scanline ∧ p.scanline ≤ 239
  · rw [onlyIf_pos l, renderSteps_sprites]
    have e1 : (p.cycle = 257 ∧ 0 ≤ p.scanline) ↔
        (0 ≤ p.scanline ∧ p.scanline ≤ 239 ∧ 257 ≤ p.cycle ∧ p.cycle ≤ 257) := by omega
    have e2 : (p.cycle = 340 ∧ 0 ≤ p.scanline) ↔
        (0 ≤ p.scanline ∧ p.scanline ≤ 239 ∧ 340 ≤ p.cycle ∧ p.cycle ≤ 340) := by omega
    simp only [e1, e2, l.1, l.2, true_and]
  · rw [onlyIf_neg l, if_neg (by omega), if_neg (by omega), if_neg (by omega), if_neg (by omega)]

/-- The sprite buffer after a tick is that after step 1. -/
theorem ppuTickOf_spr :
    (ppuTickOf cart gray p).spr = (afterRender cart gray p).spr ∧
    (ppuTickOf cart gray p).sprCount = (afterRender cart gray p).sprCount ∧
    (ppuTickOf cart gray p).zeroPossible = (afterRender cart gray p).zeroPossible := by
  rw [ppuTickOf_eq, advanceCounters_frame]
  unfold afterCompose afterBlank onlyIf
  dsimp only
  split <;> split <;> exact ⟨rfl, rfl, rfl⟩

/-- The scroll register after a tick is that after step 1. -/
theorem ppuTickOf_v : (ppuTickOf cart gray p).v = (afterRender cart gray p).v := by
  rw [ppuTickOf_eq, advanceCounters_frame]
  unfold afterCompose afterBlank onlyIf
  dsimp only
  split <;> split <;> rfl

end steps

end Sys2Proof.Machine
end

