-- ==== Sys2Proof/Tests/Slice0.lean ====
section
/-! SUPPORT. Tests. Expected results are the spec's: the ill-formed terms of R78 and R325, the opcode table (R124), the worked
examples of each instruction's rule and the derived vectors of 95_test_vectors.md. -/

namespace Sys2Proof.Tests

open Sys2Proof.Machine

/-! ## WellFormed refuses -/

theorem test_unsorted_memory_refused : Memory.wf [(2, 1), (1, 1)] = false := by decide
theorem test_repeated_address_refused : Memory.wf [(1, 1), (1, 2)] = false := by decide
theorem test_zero_cell_refused : Memory.wf [(1, 0)] = false := by decide
theorem test_cell_outside_refused : Memory.wfOf 32 [(32, 1)] = false := by decide
theorem test_good_memory_accepted : Memory.wfOf 32 [(0, 1), (31, 2)] = true := by decide
theorem test_no_prg_bank_refused : Cartridge.wf { Config.blankCartridge with prgBanks := 0 } = false := by decide
theorem test_prg_cell_outside_refused : Cartridge.wf { Config.blankCartridge with prg := [(32768, 1)] } = false := by decide
theorem test_chr_cell_outside_refused : Cartridge.wf { Config.blankCartridge with chr := [(8192, 1)] } = false := by decide
theorem test_blank_cartridge_accepted : Cartridge.wf Config.blankCartridge = true := by decide
theorem test_short_illegal_table_refused : Params.wf { Config.params with illegalCycles := [1] } = false := by decide
theorem test_default_params_accepted : Params.wf Config.params = true := by decide +kernel

/-- An image of no magic, an image of mapper 1, an image that ends early: refused (R81). -/
theorem test_bad_images_refused :
    Cartridge.ofImage [0x4E, 0x45, 0x53, 0x1B] = .error .badMagic ∧
    Cartridge.ofImage [0x4E, 0x45, 0x53, 0x1A, 1] = .error .tooShort ∧
    Cartridge.ofImage ([0x4E, 0x45, 0x53, 0x1A, 0, 0, 0x10] ++ List.replicate 9 0) = .error (.unsupportedMapper 1) :=
  ⟨rfl, rfl, rfl⟩

/-! ## Decoding, every row of the opcode table (R124), by high nibble

Opcode bytes are written bit by bit; operand bytes are 0x34, and 0x34 0x12 with the low byte first (R122). -/

/-- Every pair of words and instruction: the words decode to the instruction, and nothing is left. -/
def decodesTo (l : List (List Byte × Instr)) : Bool := l.all fun c => decide (decode c.1 = some (c.2, []))

theorem test_decode_0 : decodesTo
    [([0b00000000], .brk), ([0b00000001, 0x34], .oraIzx 0x34), ([0b00000010], .ill02), ([0b00000011], .ill03),
     ([0b00000100], .ill04), ([0b00000101, 0x34], .oraZp0 0x34), ([0b00000110, 0x34], .aslZp0 0x34),
     ([0b00000111], .ill07), ([0b00001000], .php), ([0b00001001, 0x34], .oraImm 0x34), ([0b00001010], .aslAcc),
     ([0b00001011], .ill0B), ([0b00001100], .ill0C), ([0b00001101, 0x34, 0x12], .oraAbs 0x1234),
     ([0b00001110, 0x34, 0x12], .aslAbs 0x1234), ([0b00001111], .ill0F)] = true := by decide

theorem test_decode_1 : decodesTo
    [([0b00010000, 0x34], .bpl 0x34), ([0b00010001, 0x34], .oraIzy 0x34), ([0b00010010], .ill12), ([0b00010011], .ill13),
     ([0b00010100], .ill14), ([0b00010101, 0x34], .oraZpx 0x34), ([0b00010110, 0x34], .aslZpx 0x34),
     ([0b00010111], .ill17), ([0b00011000], .clc), ([0b00011001, 0x34, 0x12], .oraAby 0x1234), ([0b00011010], .ill1A),
     ([0b00011011], .ill1B), ([0b00011100], .ill1C), ([0b00011101, 0x34, 0x12], .oraAbx 0x1234),
     ([0b00011110, 0x34, 0x12], .aslAbx 0x1234), ([0b00011111], .ill1F)] = true := by decide

theorem test_decode_2 : decodesTo
    [([0b00100000, 0x34, 0x12], .jsr 0x1234), ([0b00100001, 0x34], .andIzx 0x34), ([0b00100010], .ill22),
     ([0b00100011], .ill23), ([0b00100100, 0x34], .bitZp0 0x34), ([0b00100101, 0x34], .andZp0 0x34),
     ([0b00100110, 0x34], .rolZp0 0x34), ([0b00100111], .ill27), ([0b00101000], .plp),
     ([0b00101001, 0x34], .andImm 0x34), ([0b00101010], .rolAcc), ([0b00101011], .ill2B),
     ([0b00101100, 0x34, 0x12], .bitAbs 0x1234), ([0b00101101, 0x34, 0x12], .andAbs 0x1234),
     ([0b00101110, 0x34, 0x12], .rolAbs 0x1234), ([0b00101111], .ill2F)] = true := by decide

theorem test_decode_3 : decodesTo
    [([0b00110000, 0x34], .bmi 0x34), ([0b00110001, 0x34], .andIzy 0x34), ([0b00110010], .ill32), ([0b00110011], .ill33),
     ([0b00110100], .ill34), ([0b00110101, 0x34], .andZpx 0x34), ([0b00110110, 0x34], .rolZpx 0x34),
     ([0b00110111], .ill37), ([0b00111000], .sec), ([0b00111001, 0x34, 0x12], .andAby 0x1234), ([0b00111010], .ill3A),
     ([0b00111011], .ill3B), ([0b00111100], .ill3C), ([0b00111101, 0x34, 0x12], .andAbx 0x1234),
     ([0b00111110, 0x34, 0x12], .rolAbx 0x1234), ([0b00111111], .ill3F)] = true := by decide

theorem test_decode_4 : decodesTo
    [([0b01000000], .rti), ([0b01000001, 0x34], .eorIzx 0x34), ([0b01000010], .ill42), ([0b01000011], .ill43),
     ([0b01000100], .ill44), ([0b01000101, 0x34], .eorZp0 0x34), ([0b01000110, 0x34], .lsrZp0 0x34),
     ([0b01000111], .ill47), ([0b01001000], .pha), ([0b01001001, 0x34], .eorImm 0x34), ([0b01001010], .lsrAcc),
     ([0b01001011], .ill4B), ([0b01001100, 0x34, 0x12], .jmpAbs 0x1234), ([0b01001101, 0x34, 0x12], .eorAbs 0x1234),
     ([0b01001110, 0x34, 0x12], .lsrAbs 0x1234), ([0b01001111], .ill4F)] = true := by decide

theorem test_decode_5 : decodesTo
    [([0b01010000, 0x34], .bvc 0x34), ([0b01010001, 0x34], .eorIzy 0x34), ([0b01010010], .ill52), ([0b01010011], .ill53),
     ([0b01010100], .ill54), ([0b01010101, 0x34], .eorZpx 0x34), ([0b01010110, 0x34], .lsrZpx 0x34),
     ([0b01010111], .ill57), ([0b01011000], .cli), ([0b01011001, 0x34, 0x12], .eorAby 0x1234), ([0b01011010], .ill5A),
     ([0b01011011], .ill5B), ([0b01011100], .ill5C), ([0b01011101, 0x34, 0x12], .eorAbx 0x1234),
     ([0b01011110, 0x34, 0x12], .lsrAbx 0x1234), ([0b01011111], .ill5F)] = true := by decide

theorem test_decode_6 : decodesTo
    [([0b01100000], .rts), ([0b01100001, 0x34], .adcIzx 0x34), ([0b01100010], .ill62), ([0b01100011], .ill63),
     ([0b01100100], .ill64), ([0b01100101, 0x34], .adcZp0 0x34), ([0b01100110, 0x34], .rorZp0 0x34),
     ([0b01100111], .ill67), ([0b01101000], .pla), ([0b01101001, 0x34], .adcImm 0x34), ([0b01101010], .rorAcc),
     ([0b01101011], .ill6B), ([0b01101100, 0x34, 0x12], .jmpInd 0x1234), ([0b01101101, 0x34, 0x12], .adcAbs 0x1234),
     ([0b01101110, 0x34, 0x12], .rorAbs 0x1234), ([0b01101111], .ill6F)] = true := by decide

theorem test_decode_7 : decodesTo
    [([0b01110000, 0x34], .bvs 0x34), ([0b01110001, 0x34], .adcIzy 0x34), ([0b01110010], .ill72), ([0b01110011], .ill73),
     ([0b01110100], .ill74), ([0b01110101, 0x34], .adcZpx 0x34), ([0b01110110, 0x34], .rorZpx 0x34),
     ([0b01110111], .ill77), ([0b01111000], .sei), ([0b01111001, 0x34, 0x12], .adcAby 0x1234), ([0b01111010], .ill7A),
     ([0b01111011], .ill7B), ([0b01111100], .ill7C), ([0b01111101, 0x34, 0x12], .adcAbx 0x1234),
     ([0b01111110, 0x34, 0x12], .rorAbx 0x1234), ([0b01111111], .ill7F)] = true := by decide

theorem test_decode_8 : decodesTo
    [([0b10000000], .ill80), ([0b10000001, 0x34], .staIzx 0x34), ([0b10000010], .ill82), ([0b10000011], .ill83),
     ([0b10000100, 0x34], .styZp0 0x34), ([0b10000101, 0x34], .staZp0 0x34), ([0b10000110, 0x34], .stxZp0 0x34),
     ([0b10000111], .ill87), ([0b10001000], .dey), ([0b10001001], .ill89), ([0b10001010], .txa), ([0b10001011], .ill8B),
     ([0b10001100, 0x34, 0x12], .styAbs 0x1234), ([0b10001101, 0x34, 0x12], .staAbs 0x1234),
     ([0b10001110, 0x34, 0x12], .stxAbs 0x1234), ([0b10001111], .ill8F)] = true := by decide

theorem test_decode_9 : decodesTo
    [([0b10010000, 0x34], .bcc 0x34), ([0b10010001, 0x34], .staIzy 0x34), ([0b10010010], .ill92), ([0b10010011], .ill93),
     ([0b10010100, 0x34], .styZpx 0x34), ([0b10010101, 0x34], .staZpx 0x34), ([0b10010110, 0x34], .stxZpy 0x34),
     ([0b10010111], .ill97), ([0b10011000], .tya), ([0b10011001, 0x34, 0x12], .staAby 0x1234), ([0b10011010], .txs),
     ([0b10011011], .ill9B), ([0b10011100], .ill9C), ([0b10011101, 0x34, 0x12], .staAbx 0x1234), ([0b10011110], .ill9E),
     ([0b10011111], .ill9F)] = true := by decide

theorem test_decode_A : decodesTo
    [([0b10100000, 0x34], .ldyImm 0x34), ([0b10100001, 0x34], .ldaIzx 0x34), ([0b10100010, 0x34], .ldxImm 0x34),
     ([0b10100011], .illA3), ([0b10100100, 0x34], .ldyZp0 0x34), ([0b10100101, 0x34], .ldaZp0 0x34),
     ([0b10100110, 0x34], .ldxZp0 0x34), ([0b10100111], .illA7), ([0b10101000], .tay),
     ([0b10101001, 0x34], .ldaImm 0x34), ([0b10101010], .tax), ([0b10101011], .illAB),
     ([0b10101100, 0x34, 0x12], .ldyAbs 0x1234), ([0b10101101, 0x34, 0x12], .ldaAbs 0x1234),
     ([0b10101110, 0x34, 0x12], .ldxAbs 0x1234), ([0b10101111], .illAF)] = true := by decide

theorem test_decode_B : decodesTo
    [([0b10110000, 0x34], .bcs 0x34), ([0b10110001, 0x34], .ldaIzy 0x34), ([0b10110010], .illB2), ([0b10110011], .illB3),
     ([0b10110100, 0x34], .ldyZpx 0x34), ([0b10110101, 0x34], .ldaZpx 0x34), ([0b10110110, 0x34], .ldxZpy 0x34),
     ([0b10110111], .illB7), ([0b10111000], .clv), ([0b10111001, 0x34, 0x12], .ldaAby 0x1234), ([0b10111010], .tsx),
     ([0b10111011], .illBB), ([0b10111100, 0x34, 0x12], .ldyAbx 0x1234), ([0b10111101, 0x34, 0x12], .ldaAbx 0x1234),
     ([0b10111110, 0x34, 0x12], .ldxAby 0x1234), ([0b10111111], .illBF)] = true := by decide

theorem test_decode_C : decodesTo
    [([0b11000000, 0x34], .cpyImm 0x34), ([0b11000001, 0x34], .cmpIzx 0x34), ([0b11000010], .illC2),
     ([0b11000011], .illC3), ([0b11000100, 0x34], .cpyZp0 0x34), ([0b11000101, 0x34], .cmpZp0 0x34),
     ([0b11000110, 0x34], .decZp0 0x34), ([0b11000111], .illC7), ([0b11001000], .iny),
     ([0b11001001, 0x34], .cmpImm 0x34), ([0b11001010], .dex), ([0b11001011], .illCB),
     ([0b11001100, 0x34, 0x12], .cpyAbs 0x1234), ([0b11001101, 0x34, 0x12], .cmpAbs 0x1234),
     ([0b11001110, 0x34, 0x12], .decAbs 0x1234), ([0b11001111], .illCF)] = true := by decide

theorem test_decode_D : decodesTo
    [([0b11010000, 0x34], .bne 0x34), ([0b11010001, 0x34], .cmpIzy 0x34), ([0b11010010], .illD2), ([0b11010011], .illD3),
     ([0b11010100], .illD4), ([0b11010101, 0x34], .cmpZpx 0x34), ([0b11010110, 0x34], .decZpx 0x34),
     ([0b11010111], .illD7), ([0b11011000], .cld), ([0b11011001, 0x34, 0x12], .cmpAby 0x1234), ([0b11011010], .illDA),
     ([0b11011011], .illDB), ([0b11011100], .illDC), ([0b11011101, 0x34, 0x12], .cmpAbx 0x1234),
     ([0b11011110, 0x34, 0x12], .decAbx 0x1234), ([0b11011111], .illDF)] = true := by decide

theorem test_decode_E : decodesTo
    [([0b11100000, 0x34], .cpxImm 0x34), ([0b11100001, 0x34], .sbcIzx 0x34), ([0b11100010], .illE2),
     ([0b11100011], .illE3), ([0b11100100, 0x34], .cpxZp0 0x34), ([0b11100101, 0x34], .sbcZp0 0x34),
     ([0b11100110, 0x34], .incZp0 0x34), ([0b11100111], .illE7), ([0b11101000], .inx),
     ([0b11101001, 0x34], .sbcImm 0x34), ([0b11101010], .nop), ([0b11101011], .illEB),
     ([0b11101100, 0x34, 0x12], .cpxAbs 0x1234), ([0b11101101, 0x34, 0x12], .sbcAbs 0x1234),
     ([0b11101110, 0x34, 0x12], .incAbs 0x1234), ([0b11101111], .illEF)] = true := by decide

theorem test_decode_F : decodesTo
    [([0b11110000, 0x34], .beq 0x34), ([0b11110001, 0x34], .sbcIzy 0x34), ([0b11110010], .illF2), ([0b11110011], .illF3),
     ([0b11110100], .illF4), ([0b11110101, 0x34], .sbcZpx 0x34), ([0b11110110, 0x34], .incZpx 0x34),
     ([0b11110111], .illF7), ([0b11111000], .sed), ([0b11111001, 0x34, 0x12], .sbcAby 0x1234), ([0b11111010], .illFA),
     ([0b11111011], .illFB), ([0b11111100], .illFC), ([0b11111101, 0x34, 0x12], .sbcAbx 0x1234),
     ([0b11111110, 0x34, 0x12], .incAbx 0x1234), ([0b11111111], .illFF)] = true := by decide

/-- A row's word by the table's own numbering, with operand bits and without (0xAD is LDA absolute). -/
theorem test_table_word :
    decodeTableWord 24 0x1234AD = some (.ldaAbs 0x1234) ∧ decodeTableWord 8 0xAD = some (.ldaAbs 0) ∧
    decodeTableWord 8 0xFF = some .illFF := by decide

/-! ## One instruction -/

/-- The next state of an outcome, if it goes on, passes a check. -/
def goesTo (r : Result) (check : State → Bool) : Bool :=
  match r with
  | .next t => check t
  | _ => false

/-- A state about to execute the code at an address of the cartridge, with these registers and these bytes of RAM; the vectors of the cartridge are NMI 0x9000,
RESET 0x8000, IRQ 0xA000 (95_test_vectors.md). -/
def ready (pc : Addr) (code : List Byte) (a x y sp p : Byte) (ram : Memory) : State :=
  placeBytes pc code
    { State.reset with
      cpu := { a := a, x := x, y := y, sp := sp, pc := pc, p := p, cycles := 0 }
      cart := some { Config.blankCartridge with prg := [(0x7FFB, 0x90), (0x7FFD, 0x80), (0x7FFF, 0xA0)] }
      bus := { Bus.powerOn with ram := ram } }

/-- What a vector says after one CPU tick: A, X, Y, SP, P, PC, the instruction's count, and RAM. -/
def vector (s : State) (a x y sp p : Byte) (pc : Addr) (count : Nat) (ram : Memory) : Bool :=
  goesTo (cpuTick s) fun t =>
    decide (t.cpu = { a := a, x := x, y := y, sp := sp, pc := pc, p := p, cycles := count - 1 } ∧ t.bus.ram = ram)

/-- Vector LS6. -/
theorem test_LDA : vector (ready 0x8000 [0xBD, 0x00, 0x12] 0x00 0xFF 0x00 0xFD 0x20 [(0x2FF, 0x44)])
    0x44 0xFF 0x00 0xFD 0x20 0x8003 4 [(0x2FF, 0x44)] = true := by decide

/-- Vector LS5. -/
theorem test_LDA_page : vector (ready 0x8000 [0xBD, 0xFF, 0x12] 0x00 0x01 0x00 0xFD 0x20 [(0x300, 0x33)])
    0x33 0x01 0x00 0xFD 0x20 0x8003 5 [(0x300, 0x33)] = true := by decide

/-- Vector LS13. -/
theorem test_LDX : vector (ready 0x8000 [0xB6, 0xF0] 0x00 0x00 0x20 0xFD 0x20 [(0x010, 0x80)])
    0x00 0x80 0x20 0xFD 0xA0 0x8002 4 [(0x010, 0x80)] = true := by decide

/-- Vector LS15. -/
theorem test_LDY : vector (ready 0x8000 [0xBC, 0x80, 0x02] 0x00 0x80 0x00 0xFD 0x20 [(0x300, 0x01)])
    0x00 0x80 0x01 0xFD 0x20 0x8003 5 [(0x300, 0x01)] = true := by decide

/-- Vector LS7. -/
theorem test_LDA_indirect_wrap : vector (ready 0x8000 [0xB1, 0xFF] 0x00 0x00 0x01 0xFD 0x20 [(0x000, 0x02), (0x0FF, 0xFF), (0x300, 0x66)])
    0x66 0x00 0x01 0xFD 0x20 0x8002 6 [(0x000, 0x02), (0x0FF, 0xFF), (0x300, 0x66)] = true := by decide

/-- Vector LS8. -/
theorem test_LDA_indexed_indirect : vector (ready 0x8000 [0xA1, 0xFE] 0x00 0x01 0x00 0xFD 0x20 [(0x000, 0x02), (0x0FF, 0x34), (0x234, 0x77)])
    0x77 0x01 0x00 0xFD 0x20 0x8002 6 [(0x000, 0x02), (0x0FF, 0x34), (0x234, 0x77)] = true := by decide

/-- Vector LS12. -/
theorem test_STA : vector (ready 0x8000 [0x91, 0x20] 0xEE 0x00 0xFF 0xFD 0x20 [(0x020, 0x80), (0x021, 0x02)])
    0xEE 0x00 0xFF 0xFD 0x20 0x8002 6 [(0x020, 0x80), (0x021, 0x02), (0x37F, 0xEE)] = true := by decide

/-- Vector LS16. -/
theorem test_STX : vector (ready 0x8000 [0x96, 0xF0] 0x00 0x42 0x20 0xFD 0x20 [])
    0x00 0x42 0x20 0xFD 0x20 0x8002 4 [(0x010, 0x42)] = true := by decide

/-- Vector LS17. -/
theorem test_STY : vector (ready 0x8000 [0x94, 0x10] 0x00 0xF8 0x24 0xFD 0x20 [])
    0x00 0xF8 0x24 0xFD 0x20 0x8002 4 [(0x008, 0x24)] = true := by decide

/-- Vector LS18. -/
theorem test_TAX : vector (ready 0x8000 [0xAA] 0x00 0x09 0x00 0xFD 0x20 [])
    0x00 0x00 0x00 0xFD 0x22 0x8001 2 [] = true := by decide

/-- Vector LS19. -/
theorem test_TAY : vector (ready 0x8000 [0xA8] 0xFF 0x00 0x00 0xFD 0x20 [])
    0xFF 0x00 0xFF 0xFD 0xA0 0x8001 2 [] = true := by decide

/-- Vector LS20. -/
theorem test_TXA : vector (ready 0x8000 [0x8A] 0x00 0x7F 0x00 0xFD 0xA2 [])
    0x7F 0x7F 0x00 0xFD 0x20 0x8001 2 [] = true := by decide

/-- Vector LS21. -/
theorem test_TYA : vector (ready 0x8000 [0x98] 0x00 0x00 0x80 0xFD 0x20 [])
    0x80 0x00 0x80 0xFD 0xA0 0x8001 2 [] = true := by decide

/-- Vector LS22. -/
theorem test_TSX : vector (ready 0x8000 [0xBA] 0x00 0x00 0x00 0xFD 0x20 [])
    0x00 0xFD 0x00 0xFD 0xA0 0x8001 2 [] = true := by decide

/-- Vector LS23. -/
theorem test_TXS : vector (ready 0x8000 [0x9A] 0x00 0x00 0x00 0xFD 0xA0 [])
    0x00 0x00 0x00 0x00 0xA0 0x8001 2 [] = true := by decide

/-- Vector AL1. -/
theorem test_ADC : vector (ready 0x8000 [0x69, 0x50] 0x50 0x00 0x00 0xFD 0x20 [])
    0xA0 0x00 0x00 0xFD 0xE0 0x8002 2 [] = true := by decide

/-- Vector AL2. -/
theorem test_ADC_carry : vector (ready 0x8000 [0x69, 0x90] 0xD0 0x00 0x00 0xFD 0x20 [])
    0x60 0x00 0x00 0xFD 0x61 0x8002 2 [] = true := by decide

/-- Vector AL5. -/
theorem test_ADC_decimal_ignored : vector (ready 0x8000 [0x69, 0x01] 0x09 0x00 0x00 0xFD 0x28 [])
    0x0A 0x00 0x00 0xFD 0x28 0x8002 2 [] = true := by decide

/-- Vector AL8. -/
theorem test_SBC : vector (ready 0x8000 [0xE9, 0xF0] 0x50 0x00 0x00 0xFD 0x21 [])
    0x60 0x00 0x00 0xFD 0x20 0x8002 2 [] = true := by decide

/-- Vector AL11. -/
theorem test_SBC_overflow : vector (ready 0x8000 [0xE9, 0x01] 0x80 0x00 0x00 0xFD 0x21 [])
    0x7F 0x00 0x00 0xFD 0x61 0x8002 2 [] = true := by decide

/-- Vector AL16. -/
theorem test_CMP : vector (ready 0x8000 [0xC9, 0x41] 0x40 0x00 0x00 0xFD 0x61 [])
    0x40 0x00 0x00 0xFD 0xE0 0x8002 2 [] = true := by decide

/-- Vector AL19. -/
theorem test_CPX : vector (ready 0x8000 [0xE4, 0x10] 0x00 0x10 0x00 0xFD 0x20 [(0x010, 0x20)])
    0x00 0x10 0x00 0xFD 0xA0 0x8002 3 [(0x010, 0x20)] = true := by decide

/-- Vector AL20. -/
theorem test_CPY : vector (ready 0x8000 [0xC0, 0x00] 0x00 0x00 0x00 0xFD 0x20 [])
    0x00 0x00 0x00 0xFD 0x23 0x8002 2 [] = true := by decide

/-- Vector AL21. -/
theorem test_AND : vector (ready 0x8000 [0x29, 0x0F] 0xF0 0x00 0x00 0xFD 0x20 [])
    0x00 0x00 0x00 0xFD 0x22 0x8002 2 [] = true := by decide

/-- Vector AL22. -/
theorem test_ORA : vector (ready 0x8000 [0x09, 0x80] 0x01 0x00 0x00 0xFD 0x20 [])
    0x81 0x00 0x00 0xFD 0xA0 0x8002 2 [] = true := by decide

/-- Vector AL23. -/
theorem test_EOR : vector (ready 0x8000 [0x49, 0xFF] 0xFF 0x00 0x00 0xFD 0x20 [])
    0x00 0x00 0x00 0xFD 0x22 0x8002 2 [] = true := by decide

/-- Vector AL24. -/
theorem test_BIT : vector (ready 0x8000 [0x24, 0x10] 0x01 0x00 0x00 0xFD 0x20 [(0x010, 0xC0)])
    0x01 0x00 0x00 0xFD 0xE2 0x8002 3 [(0x010, 0xC0)] = true := by decide

/-- Vector AL28. -/
theorem test_INC : vector (ready 0x8000 [0xFE, 0xFF, 0x02] 0x00 0x01 0x00 0xFD 0x20 [(0x300, 0x7F)])
    0x00 0x01 0x00 0xFD 0xA0 0x8003 7 [(0x300, 0x80)] = true := by decide

/-- Vector AL27. -/
theorem test_DEC : vector (ready 0x8000 [0xDE, 0x10, 0x03] 0x00 0x00 0x00 0xFD 0x20 [])
    0x00 0x00 0x00 0xFD 0xA0 0x8003 7 [(0x310, 0xFF)] = true := by decide

/-- Vector AL29. -/
theorem test_INX : vector (ready 0x8000 [0xE8] 0x00 0xFF 0x00 0xFD 0x20 [])
    0x00 0x00 0x00 0xFD 0x22 0x8001 2 [] = true := by decide

/-- Vector AL32. -/
theorem test_INY : vector (ready 0x8000 [0xC8] 0x00 0x00 0x7F 0xFD 0x20 [])
    0x00 0x00 0x80 0xFD 0xA0 0x8001 2 [] = true := by decide

/-- Vector AL31. -/
theorem test_DEX : vector (ready 0x8000 [0xCA] 0x00 0x01 0x00 0xFD 0x20 [])
    0x00 0x00 0x00 0xFD 0x22 0x8001 2 [] = true := by decide

/-- Vector AL30. -/
theorem test_DEY : vector (ready 0x8000 [0x88] 0x00 0x00 0x00 0xFD 0x20 [])
    0x00 0x00 0xFF 0xFD 0xA0 0x8001 2 [] = true := by decide

/-- Vector SH8. -/
theorem test_ASL : vector (ready 0x8000 [0x06, 0x10] 0x00 0x00 0x00 0xFD 0x20 [(0x010, 0x55)])
    0x00 0x00 0x00 0xFD 0xA0 0x8002 5 [(0x010, 0xAA)] = true := by decide

/-- Vector SH2. -/
theorem test_ASL_accumulator : vector (ready 0x8000 [0x0A] 0x40 0x00 0x00 0xFD 0x21 [])
    0x80 0x00 0x00 0xFD 0xA0 0x8001 2 [] = true := by decide

/-- Vector SH3. -/
theorem test_LSR : vector (ready 0x8000 [0x4A] 0x01 0x00 0x00 0xFD 0xA0 [])
    0x00 0x00 0x00 0xFD 0x23 0x8001 2 [] = true := by decide

/-- Vector SH9. -/
theorem test_ROL : vector (ready 0x8000 [0x3E, 0xFF, 0x02] 0x00 0x01 0x00 0xFD 0x20 [(0x300, 0xFF)])
    0x00 0x01 0x00 0xFD 0xA1 0x8003 7 [(0x300, 0xFE)] = true := by decide

/-- Vector SH11. -/
theorem test_ROR : vector (ready 0x8000 [0x76, 0x10] 0x00 0x01 0x00 0xFD 0x21 [(0x011, 0x01)])
    0x00 0x01 0x00 0xFD 0xA1 0x8002 6 [(0x011, 0x80)] = true := by decide

/-- Vector BR1. -/
theorem test_BNE_not_taken : vector (ready 0x8000 [0xD0, 0x05] 0x00 0x00 0x00 0xFD 0x22 [])
    0x00 0x00 0x00 0xFD 0x22 0x8002 2 [] = true := by decide

/-- Vector BR2. -/
theorem test_BNE : vector (ready 0x8000 [0xD0, 0x05] 0x00 0x00 0x00 0xFD 0x20 [])
    0x00 0x00 0x00 0xFD 0x20 0x8007 3 [] = true := by decide

/-- Vector BR3. -/
theorem test_BEQ : vector (ready 0x8000 [0xF0, 0xFE] 0x00 0x00 0x00 0xFD 0x22 [])
    0x00 0x00 0x00 0xFD 0x22 0x8000 3 [] = true := by decide

/-- Vector BR4. -/
theorem test_BCC : vector (ready 0x80FC [0x90, 0x02] 0x00 0x00 0x00 0xFD 0x20 [])
    0x00 0x00 0x00 0xFD 0x20 0x8100 4 [] = true := by decide

/-- Vector BR5. -/
theorem test_BCS : vector (ready 0x8100 [0xB0, 0xFD] 0x00 0x00 0x00 0xFD 0x21 [])
    0x00 0x00 0x00 0xFD 0x21 0x80FF 4 [] = true := by decide

/-- Vector BR6. -/
theorem test_BMI : vector (ready 0x8010 [0x30, 0x80] 0x00 0x00 0x00 0xFD 0xA0 [])
    0x00 0x00 0x00 0xFD 0xA0 0x7F92 4 [] = true := by decide

/-- Vector BR7. -/
theorem test_BPL : vector (ready 0x8000 [0x10, 0x7F] 0x00 0x00 0x00 0xFD 0x20 [])
    0x00 0x00 0x00 0xFD 0x20 0x8081 3 [] = true := by decide

/-- Vector BR8. -/
theorem test_BVC : vector (ready 0x8000 [0x50, 0x00] 0x00 0x00 0x00 0xFD 0x20 [])
    0x00 0x00 0x00 0xFD 0x20 0x8002 3 [] = true := by decide

/-- Vector BR10. -/
theorem test_BVS : vector (ready 0x8000 [0x70, 0x04] 0x00 0x00 0x00 0xFD 0x60 [])
    0x00 0x00 0x00 0xFD 0x60 0x8006 3 [] = true := by decide

/-- Vector JP1. -/
theorem test_JSR : vector (ready 0x8000 [0x20, 0x00, 0x90] 0x00 0x00 0x00 0xFD 0x20 [])
    0x00 0x00 0x00 0xFB 0x20 0x9000 6 [(0x1FC, 0x02), (0x1FD, 0x80)] = true := by decide

/-- Vector JP8. -/
theorem test_JSR_stack_wraps : vector (ready 0x8000 [0x20, 0x00, 0x90] 0x00 0x00 0x00 0x00 0x20 [])
    0x00 0x00 0x00 0xFE 0x20 0x9000 6 [(0x100, 0x80), (0x1FF, 0x02)] = true := by decide

/-- Vector JP3. -/
theorem test_JMP : vector (ready 0x8000 [0x4C, 0x34, 0x12] 0x00 0x00 0x00 0xFD 0x20 [])
    0x00 0x00 0x00 0xFD 0x20 0x1234 3 [] = true := by decide

/-- Vector JP4. -/
theorem test_JMP_indirect_same_page : vector (ready 0x8000 [0x6C, 0xFF, 0x02] 0x00 0x00 0x00 0xFD 0x20 [(0x200, 0x12), (0x2FF, 0x34), (0x300, 0x56)])
    0x00 0x00 0x00 0xFD 0x20 0x1234 5 [(0x200, 0x12), (0x2FF, 0x34), (0x300, 0x56)] = true := by decide

/-- Vector ST2. -/
theorem test_PHA : vector (ready 0x8000 [0x48] 0x42 0x00 0x00 0x00 0x20 [])
    0x42 0x00 0x00 0xFF 0x20 0x8001 3 [(0x100, 0x42)] = true := by decide

/-- Vector ST3. -/
theorem test_PHP : vector (ready 0x8000 [0x08] 0x00 0x00 0x00 0xFD 0xA1 [])
    0x00 0x00 0x00 0xFC 0xA1 0x8001 3 [(0x1FD, 0xB1)] = true := by decide

/-- Vector ST5. -/
theorem test_PLA : vector (ready 0x8000 [0x68] 0x00 0x00 0x00 0xFF 0x20 [(0x100, 0x80)])
    0x80 0x00 0x00 0x00 0xA0 0x8001 4 [(0x100, 0x80)] = true := by decide

/-- Vector ST6. -/
theorem test_PLP : vector (ready 0x8000 [0x28] 0x00 0x00 0x00 0xFC 0x20 [(0x1FD, 0xFF)])
    0x00 0x00 0x00 0xFD 0xEF 0x8001 4 [(0x1FD, 0xFF)] = true := by decide

/-- Vector FL1. -/
theorem test_CLC : vector (ready 0x8000 [0x18] 0x00 0x00 0x00 0xFD 0xEF [])
    0x00 0x00 0x00 0xFD 0xEE 0x8001 2 [] = true := by decide

/-- Vector FL2. -/
theorem test_SEC : vector (ready 0x8000 [0x38] 0x00 0x00 0x00 0xFD 0x20 [])
    0x00 0x00 0x00 0xFD 0x21 0x8001 2 [] = true := by decide

/-- Vector FL3. -/
theorem test_CLI : vector (ready 0x8000 [0x58] 0x00 0x00 0x00 0xFD 0x24 [])
    0x00 0x00 0x00 0xFD 0x20 0x8001 2 [] = true := by decide

/-- Vector FL4. -/
theorem test_SEI : vector (ready 0x8000 [0x78] 0x00 0x00 0x00 0xFD 0x20 [])
    0x00 0x00 0x00 0xFD 0x24 0x8001 2 [] = true := by decide

/-- Vector FL5. -/
theorem test_CLV : vector (ready 0x8000 [0xB8] 0x00 0x00 0x00 0xFD 0x60 [])
    0x00 0x00 0x00 0xFD 0x20 0x8001 2 [] = true := by decide

/-- Vector FL6. -/
theorem test_CLD : vector (ready 0x8000 [0xD8] 0x00 0x00 0x00 0xFD 0x28 [])
    0x00 0x00 0x00 0xFD 0x20 0x8001 2 [] = true := by decide

/-- Vector FL7. -/
theorem test_SED : vector (ready 0x8000 [0xF8] 0x00 0x00 0x00 0xFD 0x20 [])
    0x00 0x00 0x00 0xFD 0x28 0x8001 2 [] = true := by decide

/-- Vector FL8. -/
theorem test_NOP : vector (ready 0x8000 [0xEA] 0x01 0x02 0x03 0xFD 0xE3 [])
    0x01 0x02 0x03 0xFD 0xE3 0x8001 2 [] = true := by decide

/-- Vector SY1. -/
theorem test_BRK : vector (ready 0x8000 [0x00, 0xFF] 0x00 0x00 0x00 0xFD 0x21 [])
    0x00 0x00 0x00 0xFA 0x25 0xA000 7 [(0x1FB, 0x31), (0x1FC, 0x02), (0x1FD, 0x80)] = true := by decide

/-- Vector SY2. -/
theorem test_RTI : vector (ready 0x8000 [0x40] 0x00 0x00 0x00 0xFA 0x20 [(0x1FB, 0xFF), (0x1FC, 0x34), (0x1FD, 0x12)])
    0x00 0x00 0x00 0xFD 0xEF 0x1234 6 [(0x1FB, 0xFF), (0x1FC, 0x34), (0x1FD, 0x12)] = true := by decide

/-- Vector SY5. -/
theorem test_illegal : vector (ready 0x8000 [0xFF, 0xFF, 0xFF] 0x00 0x00 0x00 0xFD 0x20 [])
    0x00 0x00 0x00 0xFD 0x20 0x8001 7 [] = true := by decide

/-! ## Exceptions (95_test_vectors.md, IN1 to IN5) -/

/-- Vector IN1: an NMI from PC 0x8123 replaces `cycles`. -/
theorem test_NMI :
    let t := raiseNmi { ready 0x8123 [] 0 0 0 0xFD 0x21 [] with calls := [] }
    t.cpu = { a := 0, x := 0, y := 0, sp := 0xFA, pc := 0x9000, p := 0x25, cycles := 8 } ∧
      t.bus.ram = [(0x1FB, 0x21), (0x1FC, 0x23), (0x1FD, 0x81)] := by decide

/-- Vector IN3: an IRQ while I is 0. -/
theorem test_IRQ :
    let t := raiseIrq (ready 0x8123 [] 0 0 0 0xFD 0xE3 [])
    t.cpu = { a := 0, x := 0, y := 0, sp := 0xFA, pc := 0xA000, p := 0xE7, cycles := 7 } ∧
      t.bus.ram = [(0x1FB, 0xE3), (0x1FC, 0x23), (0x1FD, 0x81)] := by decide

/-- Vector IN2: an IRQ while I is 1 is lost. -/
theorem test_IRQ_masked : raiseIrq (ready 0x8123 [] 0 0 0 0xFD 0x24 []) = ready 0x8123 [] 0 0 0 0xFD 0x24 [] := by decide +kernel

/-- Vector IN5: Bus reset. -/
theorem test_reset :
    let t := busReset (ready 0x8123 [] 1 2 3 0x80 0xE3 [(5, 9)])
    t.cpu = { a := 0, x := 0, y := 0, sp := 0xFD, pc := 0x8000, p := 0x20, cycles := 8 } ∧ t.bus.clock = 0 ∧
      t.bus.ram = [(5, 9)] := by decide

/-! ## Ports, DMA, controllers (95_test_vectors.md, PP, DM, CT) -/

/-- A state after some CPU writes. -/
def writes (l : List (Addr × Byte)) (s : State) : State := l.foldl (fun t c => cpuWrite t c.1 c.2) s

/-- Vector PP1: a nametable byte through ports 6 and 7. -/
theorem test_PP1 :
    let t := writes [(0x2006, 0x21), (0x2006, 0x08), (0x2007, 0xAB)] State.reset
    t.ppu.nt0 = [(0x108, 0xAB)] ∧ t.ppu.v = 0x2109 ∧ t.ppu.t = 0x2108 ∧ t.ppu.w = false := by decide

/-- Vector PP2: a data-port read returns the old buffer first. -/
theorem test_PP2 :
    let s := writes [(0x2006, 0x21), (0x2006, 0x08), (0x2007, 0xAB), (0x2006, 0x21), (0x2006, 0x08)] State.reset
    (cpuRead s 0x2007).1 = 0x00 ∧ (cpuRead (cpuRead s 0x2007).2 0x2007).1 = 0xAB := by decide

/-- Vector PP4: a status read clears vertical blank and `w`. -/
theorem test_PP4 :
    let s := { State.reset with ppu := { Ppu.powerOn with
      status := { verticalBlank := true, spriteZeroHit := true, spriteOverflow := true }, dataBuffer := 0x1F, w := true } }
    let r := cpuRead s 0x2002
    r.1 = 0xFF ∧ (cpuRead r.2 0x2002).1 = 0x7F ∧ r.2.ppu.w = false := by decide

/-- Vector PP5: the scroll writes. -/
theorem test_PP5 :
    let t := writes [(0x2000, 0x03), (0x2005, 0x7D), (0x2005, 0x5E), (0x2000, 0x00)] State.reset
    t.ppu.t = 0x616F ∧ t.ppu.fineX = 5 ∧ t.ppu.v = 0 := by decide

/-- Vector PP3c: palette reads are six bits, or the grayscale mask. -/
theorem test_PP3c :
    let s := writes [(0x2006, 0x3F), (0x2006, 0x04), (0x2007, 0x7F), (0x2006, 0x3F), (0x2006, 0x04)] State.reset
    (cpuRead s 0x2007).1 = 0x3F ∧ (cpuRead (cpuWrite s 0x2001 1) 0x2007).1 = 0x30 := by decide

/-- Vector CT1: a controller is read most significant bit first, then zeros. -/
theorem test_CT1 :
    let s := cpuWrite { State.reset with ctrlIn0 := 0xA5, ctrlIn1 := 0x3C } 0x4016 0
    (List.range 9).map (fun k => (cpuRead (afterReads 0x4016 k s) 0x4016).1) = [1, 0, 1, 0, 0, 1, 0, 1, 0] ∧
      (cpuRead s 0x4017).1 = 0 := by decide

/-- R404, R405: the trigger, the alignment, the read and the write of a transfer. -/
theorem test_DMA_micro_steps :
    let s := cpuWrite { State.reset with bus := { Bus.powerOn with ram := [(0x200, 0x77)], clock := 3 } } 0x4014 0x02
    let wait := dmaStep s
    let get := dmaStep { wait with bus := { wait.bus with clock := 6 } }
    let put := dmaStep { get with bus := { get.bus with clock := 9 } }
    s.bus.dmaTransfer = true ∧ wait.bus.dmaDummy = false ∧ get.bus.dmaData = 0x77 ∧
      put.ppu.oam = [(0, 0x77)] ∧ put.bus.dmaAddr = 1 := by decide

/-- R362, R363 as 95_test_vectors.md works them: rows of 8x8 and 8x16 sprites. -/
theorem test_sprite_addresses :
    let s (id attr : Byte) : Sprite := { Sprite.empty with y := 10, id := id, attr := attr }
    spriteAddress { Ppu.powerOn with ctrl := 0x08 } 13 (s 0x23 0) = some 0x1233 ∧
    spriteAddress { Ppu.powerOn with ctrl := 0x08 } 13 (s 0x23 0x80) = some 0x1234 ∧
    bitReverse8 0xB1 = 0x8D := by decide

/-- R371: the raster after the last cycle of the last line. -/
theorem test_raster_wraps :
    let q := ppuTickOf none 0x30 { Ppu.powerOn with scanline := 260, cycle := 340 }
    q.scanline = -1 ∧ q.cycle = 0 ∧ q.frameComplete = true := by decide

/-! ## A step from reset -/

/-- LDA #$34, by the opcode table's word, is what the first step runs. -/
theorem test_step_runs_the_word :
    goesTo (step (State.reset.withFetchWord 16 0x34A9)) (fun t => decide (t.cpu.a = 0x34 ∧ t.cpu.cycles = 1)) = true := by
  decide

/-- A store and an illegal opcode, by their table words. -/
theorem test_step_runs_other_words :
    goesTo (step (State.reset.withFetchWord 24 0x07FF8D)) (fun t => decide (t.cpu.pc = 3 ∧ t.cpu.cycles = 3)) = true ∧
    goesTo (step (State.reset.withFetchWord 8 0x02)) (fun t => decide (t.cpu.pc = 1 ∧ t.cpu.cycles = 1)) = true := by decide

/-- From reset with nothing placed, the first step counts `cycles` down (R482). -/
theorem test_first_step_counts_down :
    goesTo (step State.reset) (fun t => decide (t.cpu.cycles = 7 ∧ t.bus.clock = 1)) = true := by decide

/-! ## Witnesses: the hypotheses of the obligations can be met

One theorem for each obligation with hypotheses, at boundary values where a clause has a range. -/

/-- A state with small contents, PC past an instruction at 0x8000. -/
def small : State := { ready 0x8002 [] 1 2 3 0x00 0x21 [(0x10, 0x80)] with calls := [] }

theorem test_witness_DecodeInvertsEncode : ∃ (i : Instr) (rest : List Byte), i.wellFormed = true ∧ rest ≠ [] :=
  ⟨.ldaAbs 0xFFFF, [0xA9], rfl, by decide⟩

theorem test_witness_ReturnResumesAfterCall : ∃ (w : Addr) (s t u : State),
    exec (.jsr w) s = .next t ∧ u.bus.ram = t.bus.ram ∧ u.cpu.sp = t.cpu.sp ∧ s.cpu.sp = 0x00 :=
  ⟨0x9000, small, _, _, rfl, rfl, rfl, rfl⟩

theorem test_witness_ReadingInstructionsFrame : ∃ (s t : State),
    (Instr.ldaZp0 0x10).row.mnemonic = .lda ∧ exec (.ldaZp0 0x10) s = .next t ∧ t.cpu.a = 0x80 :=
  ⟨small, _, rfl, rfl, by decide⟩

theorem test_witness_StoringInstructionsFrame : ∃ (s t : State),
    (Instr.staAbs 0x1FFF).row.mnemonic = .sta ∧ exec (.staAbs 0x1FFF) s = .next t ∧
      storePlace s 0x1FFF = some (.ram 0x7FF) ∧ t.byteAt (.ram 0x7FF) = 1 :=
  ⟨small, _, rfl, rfl, by decide, by decide⟩

theorem test_witness_ModifyingInstructionsFrame : ∃ (s t : State),
    (Instr.incZp0 0x10).row.mnemonic = .inc ∧ exec (.incZp0 0x10) s = .next t ∧ t.byteAt (.ram 0x10) = 0x81 ∧
      (Instr.aslAcc).row.operand = .acc :=
  ⟨small, _, rfl, rfl, by decide, rfl⟩

theorem test_witness_StackInstructionsFrame : ∃ (s t : State),
    (Instr.brk).row.mnemonic = .brk ∧ exec .brk s = .next t ∧ t.byteAt (.ram 0x100) = 0x80 ∧
      t.byteAt (.ram 0x1FF) = 0x03 :=
  ⟨small, _, rfl, rfl, by decide, by decide⟩

theorem test_witness_RegistersHaveTheseWriters : ∃ (i : Instr) (s t : State), exec i s = .next t :=
  ⟨.nop, small, _, rfl⟩

theorem test_witness_NmiAndIrqAreTaken : (statusBits small.cpu.p).i = false ∧ (statusBits State.reset.cpu.p).i = false := by
  decide

theorem test_witness_ReturnResumesAfterEntry : ∃ (s t u : State),
    exec .brk s = .next t ∧ u.bus.ram = t.bus.ram ∧ u.cpu.sp = t.cpu.sp ∧
      u.bus.ram = (enter 0xFFFE true (s.setPc (s.cpu.pc + 1))).bus.ram :=
  ⟨small, _, _, rfl, rfl, rfl, rfl⟩

/-- Each case of the reset vector: no cartridge, one bank, two banks. -/
theorem test_witness_ResetLeavesThese :
    let two := { Config.blankCartridge with prg := [(0x3FFD, 0xC1), (0x7FFD, 0x90)] }
    (cpuReset State.powerOn).cpu.pc = 0x0000 ∧
    (cpuReset { State.reset with cart := some { two with prgBanks := 1 } }).cpu.pc = 0xC100 ∧
    (busReset { State.reset with cart := some two }).cpu.pc = 0x9000 := by decide

theorem test_witness_InstructionOccupiesItsCount : ∃ (s t : State),
    s.cpu.cycles = 0 ∧ exec (fetch s).1 (fetch s).2 = .next t ∧ t.cpu.cycles = 2 :=
  ⟨ready 0x8000 [0xA9, 0x00] 0 0 0 0xFD 0x20 [], _, rfl, rfl, by decide⟩

theorem test_witness_StepRunsTheDecodedInstruction : ∃ (s code : State) (bytes : List Byte) (i : Instr),
    s.calls = [] ∧ s.cart.isSome = true ∧ s.bus.clock % 3 = 0 ∧ s.bus.dmaTransfer = false ∧ s.cpu.cycles = 0 ∧
      readCodes 2 (ppuTick s) = (bytes, code) ∧ decode bytes = some (i, []) ∧ i = .ldaImm 0x34 :=
  ⟨ready 0x8000 [0xA9, 0x34] 0 0 0 0xFD 0x20 [], _, _, _, rfl, rfl, rfl, rfl, rfl, rfl, rfl, by decide⟩

theorem test_witness_BusTickRunsInOrder : ∃ (s t : State), s.calls = [] ∧ s.cart.isSome = true ∧ step s = .next t :=
  ⟨State.reset, _, rfl, rfl, rfl⟩

/-- Without a cartridge a Bus tick is the only call refused; a malformed cartridge is. -/
theorem test_witness_StepGoesOnWhenAllowed :
    goesOn State.reset = true ∧ goesOn State.powerOn = false ∧
    goesOn { State.powerOn with calls := [.cpuTick] } = true ∧
    goesOn { State.powerOn with calls := [.insertCartridge { Config.blankCartridge with prgBanks := 0 }] } = false := by decide

/-- R82: reset before insertion reads the vector 0x0000, and a CPU write and read act as the decoder says. -/
theorem test_calls_without_cartridge :
    step { State.powerOn with calls := [.busReset] } =
      .next { State.powerOn with cpu := { a := 0, x := 0, y := 0, sp := 0xFD, pc := 0, p := 0x20, cycles := 8 } } ∧
    step { State.powerOn with calls := [.cpuRead 0xFFFC false] } = .next { State.powerOn with reply := .byte 0 } :=
  ⟨rfl, rfl⟩

theorem test_witness_NoCartridgeIsRefused :
    State.powerOn.cart = none ∧ State.powerOn.calls = [] ∧ 0x4020 ≤ (0x4020 : Addr).toNat ∧
      step { State.powerOn with calls := [.busTick] } = .refused .noCartridge :=
  ⟨rfl, rfl, by decide, rfl⟩

theorem test_witness_PeekChangesNothing : ∃ c : HostCall,
    (∃ a, c = .cpuRead a true) ∨ ∃ port, c = .ppuRead port true :=
  ⟨.cpuRead 0x2002 true, .inl ⟨_, rfl⟩⟩

/-- Each clause of the read decoder at its boundary addresses: what stands there is read, and a device's state is changed. -/
theorem test_witness_CpuReadDecoding :
    let s := { small with ctrlIn0 := 0, bus := { small.bus with ctrlShift0 := 0x80, ctrlShift1 := 0x01, ram := [(0x7FF, 5)] } }
    (cpuRead s 0xFFFF).1 = 0xA0 ∧ (cpuRead s 0x8000).1 = 0 ∧ (cpuRead s 0x1FFF).1 = 5 ∧
    (cpuRead s 0x2000).1 = 0 ∧ (cpuRead s 0x3FFF).2.ppu.v = 1 ∧ (cpuRead s 0x4000).1 = 0 ∧
    (cpuRead s 0x4016).1 = 1 ∧ (cpuRead s 0x4017).2.bus.ctrlShift1 = 2 ∧ (cpuRead s 0x7FFF).1 = 0 ∧
    (cpuRead { s with cart := none } 0x8000).1 = 0 := by decide

/-- Each clause of the write decoder at its boundary addresses. -/
theorem test_witness_CpuWriteDecoding :
    let s := { small with ctrlIn0 := 0xA5, ctrlIn1 := 0x3C }
    cpuWrite s 0x8000 1 = s ∧ cpuWrite s 0xFFFF 1 = s ∧ (cpuWrite s 0x0000 1).bus.ram = [(0, 1), (0x10, 0x80)] ∧
    (cpuWrite s 0x1FFF 1).bus.ram = [(0x10, 0x80), (0x7FF, 1)] ∧ (cpuWrite s 0x2000 1).ppu.ctrl = 1 ∧
    (cpuWrite s 0x3FFF 1).ppu.v = 1 ∧ (cpuWrite s 0x4014 1).bus.dmaPage = 1 ∧
    (cpuWrite s 0x4016 1).bus.ctrlShift0 = 0xA5 ∧ (cpuWrite s 0x4017 1).bus.ctrlShift1 = 0x3C ∧
    cpuWrite s 0x4000 1 = s ∧ cpuWrite s 0x7FFF 1 = s := by decide +kernel

theorem test_witness_RamIsMirrored :
    (0x1FFF : Addr).toNat ≤ 0x1FFF ∧ (cpuRead (cpuWrite small 0x1FFF 9) 0x07FF).1 = 9 ∧
      (cpuRead (cpuWrite small 0x1FFF 9) 0x0010).1 = 0x80 := by decide

/-- A state just after a DMA from `page` was started at clock `c0`. -/
def dmaAt (page : Byte) (c0 : Nat) : State :=
  let s := cpuWrite small 0x4014 page
  { s with bus := { s.bus with clock := c0 + 1 } }

/-- What the statement asks of a state in which a transfer was just started. -/
def dmaStarted (s : State) : Bool :=
  s.cart.isSome && decide (s.bus.clock % 3 = 1) && s.bus.dmaTransfer && s.bus.dmaDummy && decide (s.bus.dmaAddr = 0)

/-- An even and an odd start; a RAM page, the stack page with NMI off, a port page, and the pages at the ends of the rest. -/
theorem test_witness_DmaCopiesThePage :
    dmaStarted (dmaAt 0x02 0) ∧ dmaStarted (dmaAt 0x01 3) ∧ dmaStarted (dmaAt 0x20 0) ∧ dmaStarted (dmaAt 0x40 3) ∧
    dmaStarted (dmaAt 0xFF 0) ∧ small.ppu.ctrl.getLsbD 7 = false ∧ small.ppu.nmiRequest = false := by decide

theorem test_witness_PpuPortWrites :
    Ppu.powerOn.w = false ∧ (ppuPortWrite none Ppu.powerOn 5 0xFF).w = true ∧
      (ppuPortWrite none Ppu.powerOn 6 0xFF).t = 0x3F00 := by decide

/-- Each clause at the ends of its range: 0x0000 and 0x1FFF, 0x2000 and 0x3EFF, 0x3F00 and 0x3FFF, and 0x4000 above them. -/
theorem test_witness_NametablesAndPaletteAreMirrored :
    let c := { Config.blankCartridge with chr := [(0x1FFF, 9)] }
    let ramOnly := { c with chrBanks := 0, chr := [] }
    let p := Ppu.powerOn
    ppuRead (some c) 0x30 p 0x1FFF = 9 ∧ ppuRead (some c) 0x30 p 0x5FFF = 9 ∧
    ppuRead (some c) 0x30 (ppuWrite (some c) p 0x1FFF 7) 0x1FFF = 9 ∧
    ppuRead (some ramOnly) 0x30 (ppuWrite (some ramOnly) p 0x4000 7) 0x0000 = 7 ∧
    ppuRead (some c) 0x30 (ppuWrite (some c) p 0x2000 7) 0x3400 = 7 ∧
    ppuRead (some c) 0x30 (ppuWrite (some c) p 0x3EFF 7) 0x2AFF = 7 ∧
    ppuRead (some c) 0x30 (ppuWrite (some c) p 0x3F00 0x7F) 0x3F10 = 0x3F ∧
    ppuRead (some c) 0x30 (ppuWrite (some c) p 0x3FFF 0x7F) 0x7F1F = 0x3F ∧
    ppuRead (some c) 0x30 (ppuWrite (some c) p 0x3F00 0x7F) 0x3F01 = 0 := by decide

theorem test_witness_FrameCompletesEvery89342Ticks : Ppu.powerOn.RasterOk ∧ Ppu.powerOn.frameComplete = false :=
  ⟨⟨by decide, by decide, by decide⟩, rfl⟩

/-- Each clause has a position: (241, 1), (-1, 1) and one that is neither; and patterns that are clear, with a fetch and without. -/
theorem test_witness_VerticalBlankIsSetAndCleared :
    let p := Ppu.powerOn
    let lit := { Sprite.empty with patLo := 0x80 }
    let set : PpuStatus := { verticalBlank := true, spriteZeroHit := true, spriteOverflow := true }
    (ppuTickOf none 0x30 { p with scanline := 241, cycle := 1, ctrl := 0x80 }).nmiRequest = true ∧
    (ppuTickOf none 0x30 { p with scanline := -1, cycle := 1, status := set, spr := [lit] }).status = p.status ∧
    (ppuTickOf none 0x30 { p with scanline := -1, cycle := 1, status := set, spr := [lit] }).spr = [Sprite.empty] ∧
    (ppuTickOf none 0x30 { p with scanline := -1, cycle := 2, status := set }).status = set ∧
    (ppuTickOf none 0x30 { p with scanline := 241, cycle := 2, ctrl := 0x80 }).nmiRequest = false ∧
    (∀ r ∈ p.spr, r.patLo = 0 ∧ r.patHi = 0) ∧ p.onVisible 340 340 = false := by decide

/-- A tick that draws, at the first and the last column, and one that does not. -/
theorem test_witness_PpuTickFrame :
    let p := { Ppu.powerOn with pal := [(0, 0x0F)] }
    (ppuTickOf none 0x30 { p with cycle := 1 }).frame = [(0, 0x0F)] ∧
    (ppuTickOf none 0x30 { p with scanline := 239, cycle := 256 }).frame = [(61439, 0x0F)] ∧
    (ppuTickOf none 0x30 { p with cycle := 257 }).frame = [] := by decide

/-- R374, by hand: the fetches at cycles 321, 323, 325 and 327, the load at 329, the shift at 330. -/
theorem test_background_pipeline :
    let c : Cartridge := { Config.blankCartridge with chr := [(0x10, 0xFF)] }
    let p := { Ppu.powerOn with scanline := -1, mask := 0x08, nt0 := [(0, 1), (0x3C0, 0x02)] }
    let tick (cy : Nat) (q : Ppu) := ppuTickOf (some c) 0x30 { q with cycle := cy }
    (tick 321 p).bgNextId = 1 ∧ (tick 323 p).bgNextAttr = 2 ∧
    (tick 325 { p with bgNextId := 1 }).bgNextLsb = 0xFF ∧ (tick 327 { p with bgNextId := 1 }).bgNextMsb = 0x00 ∧
    (tick 329 { p with bgNextLsb := 0xFF, bgPatLo := 0x0100 }).bgPatLo = 0x02FF ∧
    (tick 329 { p with bgNextAttr := 2, bgAttrHi := 0x0100 }).bgAttrHi = 0x02FF ∧
    (tick 330 { p with bgPatLo := 0x02FF }).bgPatLo = 0x05FE := by decide

/-- The ticks at which evaluation runs and does not, on the first and the last visible line. -/
theorem test_witness_SpriteEvaluationIsTheLoop :
    ({ Ppu.powerOn with cycle := 257 }).onVisible 257 257 = true ∧
    ({ Ppu.powerOn with scanline := 239, cycle := 257 }).onVisible 257 257 = true ∧
    ({ Ppu.powerOn with scanline := -1, cycle := 257 }).onVisible 257 257 = false ∧
    ({ Ppu.powerOn with scanline := 240, cycle := 257 }).onVisible 257 257 = false ∧
    (ppuTickOf none 0x30 { Ppu.powerOn with cycle := 257 }).sprCount = 8 := by decide

/-- The rows at the ends of their ranges: 0 and 7 of 8x8, 0, 7, 8 and 15 of 8x16, where the two halves meet. -/
theorem test_witness_SpritePatternAddresses :
    let s : Sprite := { Sprite.empty with y := 10, id := 5, attr := 0 }
    let low := { Ppu.powerOn with ctrl := 0x00 }
    let tall := { Ppu.powerOn with ctrl := 0x20 }
    spriteAddress low 10 s = some 0x0050 ∧ spriteAddress low 17 s = some 0x0057 ∧
    spriteAddress tall 10 s = some 0x1040 ∧ spriteAddress tall 17 s = some 0x1047 ∧
    spriteAddress tall 18 s = some 0x1050 ∧ spriteAddress tall 25 s = some 0x1057 := by decide

/-- A tick that loads (reversed), one that counts down, one that shifts, and one after the last that does. -/
theorem test_witness_SpritePatternTicks :
    let s : Sprite := { y := 10, id := 0, attr := 0x40, x := 1, patLo := 0x41, patHi := 0x80 }
    let p := { Ppu.powerOn with scanline := 10, mask := 0x10, spr := [s], sprCount := 1, pat := [(0, 0x01), (8, 0x30)] }
    (ppuTickOf none 0x30 { p with cycle := 340 }).spr = [{ s with patLo := 0x80, patHi := 0x0C }] ∧
    (ppuTickOf none 0x30 { p with cycle := 2 }).spr = [{ s with x := 0 }] ∧
    (ppuTickOf none 0x30 { p with cycle := 256, spr := [{ s with x := 0 }] }).spr =
      [{ s with x := 0, patLo := 0x82, patHi := 0x00 }] ∧
    (ppuTickOf none 0x30 { p with cycle := 258 }).spr = [s] := by decide

/-- Rendering on and rendering off; and the ticks that change v, at their ends. -/
theorem test_witness_ScrollIncrementsAndTransfers :
    let p := { Ppu.powerOn with mask := 0x08, v := 0x001F, t := 0x7FE0 }
    let tick (sl : Int) (cy : Nat) := (ppuTickOf none 0x30 { p with scanline := sl, cycle := cy }).v
    (incrementScrollX p).v = 0x0400 ∧
    (incrementScrollY { Ppu.powerOn with mask := 0x10, v := 0x73A0 }).v = 0x0800 ∧
    (incrementScrollY { Ppu.powerOn with mask := 0x10, v := 0x73E0 }).v = 0x0000 ∧
    (incrementScrollX { Ppu.powerOn with v := 0x001F }).v = 0x001F ∧
    tick 0 8 = 0x0400 ∧ tick 239 256 = 0x1400 ∧ tick 0 328 = 0x0400 ∧ tick 0 320 = 0x001F ∧ tick 240 256 = 0x001F ∧
    tick 0 257 = 0x0400 ∧ tick (-1) 280 = 0x7BFF ∧ tick (-1) 304 = 0x7BFF ∧ tick (-1) 305 = 0x001F ∧ tick 0 280 = 0x001F := by
  decide

theorem test_witness_RenderingDisabledDrawsTheBackdrop :
    Ppu.powerOn.mask.getLsbD 3 = false ∧ Ppu.powerOn.mask.getLsbD 4 = false ∧
      ({ Ppu.powerOn with cycle := 1 }).onVisible 1 256 = true ∧ ({ Ppu.powerOn with cycle := 9 }).fetchSlot 0 = true := by decide

/-- Record 1 is the first that shows; both layers off; and the ticks that draw and do not. -/
theorem test_witness_PixelsAreResolved :
    let s : Sprite := { y := 0, id := 0, attr := 0x22, x := 0, patLo := 0x80, patHi := 0 }
    let p := { Ppu.powerOn with mask := 0x18, spr := [{ s with x := 1 }, s], sprCount := 2, bgPatHi := 0x8000 }
    (spritePixel p).px = 1 ∧ (spritePixel p).pal = 6 ∧ (spritePixel p).front = false ∧ (spritePixel p).zero = false ∧
    (backgroundPixel p).px = 2 ∧ (spritePixel { p with mask := 0 }).px = 0 ∧ (backgroundPixel { p with mask := 0 }).px = 0 ∧
    ({ p with scanline := 239, cycle := 256 }).onVisible 1 256 = true ∧ ({ p with cycle := 257 }).onVisible 1 256 = false := by
  decide

theorem test_witness_StepKeepsTheStatusInvariant : ∃ s t : State, s.cpu.Ok ∧ step s = .next t :=
  ⟨State.reset, _, ⟨rfl, by decide⟩, rfl⟩

theorem test_witness_StepKeepsTheMemories : ∃ s t : State, s.ppu.MemoriesOk ∧ s.bus.MemoryOk ∧ step s = .next t :=
  ⟨State.reset, _, ⟨rfl, rfl, rfl, rfl, rfl, rfl, fun _ => Nat.zero_lt_succ 63, rfl, rfl, rfl, rfl⟩, rfl, rfl⟩

theorem test_witness_StepKeepsRasterSpritesAndDma : ∃ s t : State,
    s.ppu.RasterOk ∧ s.ppu.SpritesOk ∧ s.bus.DmaOk ∧ s.CartridgeOk ∧ step s = .next t :=
  ⟨State.reset, _, ⟨by decide, by decide, by decide⟩, ⟨rfl, by decide⟩, fun _ => ⟨rfl, rfl⟩,
    fun c h => by cases h; decide, rfl⟩

end Sys2Proof.Tests
end

section
/-! SUPPORT. The raster over many PPU ticks (R47, R371, R372). -/

namespace Sys2Proof.Machine

/-- A position in range is one of the 341 x 262 of a frame (R47). -/
theorem rasterIndex_bounds {p : Ppu} (h : p.RasterOk) : 0 ≤ rasterIndex p ∧ rasterIndex p < 89342 := by
  obtain ⟨low, high, cycle⟩ := h
  unfold rasterIndex
  omega

section ticks
variable (cart : Option Cartridge) (gray : BitVec 6)

/-- One tick on the raster: one position on, and at the last position the wrap, which completes the frame (R371). -/
theorem ppuTickOf_rasterIndex {p : Ppu} (h : p.RasterOk) :
    (ppuTickOf cart gray p).RasterOk ∧
    rasterIndex (ppuTickOf cart gray p) = (rasterIndex p + 1) % 89342 ∧
    ((ppuTickOf cart gray p).frameComplete = true ↔ p.frameComplete = true ∨ rasterIndex p + 1 = 89342) := by
  obtain ⟨low, high, cycle⟩ := h
  have tick := ppuTickOf_raster cart gray p
  unfold Ppu.RasterOk rasterIndex
  generalize ppuTickOf cart gray p = q at tick ⊢
  -- the end of the frame, the end of another line, a place inside a line: the same arithmetic
  split at tick
  case' isTrue => split at tick
  all_goals
    simp only [Prod.mk.injEq] at tick
    obtain ⟨line, col, complete⟩ := tick
    rw [line, col, complete]
    exact ⟨by omega, by omega, by simp; omega⟩

/-- `n` ticks on the raster: `n` positions on modulo a frame, and the frame is complete exactly when it was before or the
position has wrapped (R371, R372). -/
theorem ppuTicks_rasterIndex (n : Nat) {p : Ppu} (h : p.RasterOk) :
    (ppuTicks cart gray n p).RasterOk ∧
    rasterIndex (ppuTicks cart gray n p) = (rasterIndex p + n) % 89342 ∧
    ((ppuTicks cart gray n p).frameComplete = true ↔ p.frameComplete = true ∨ 89342 ≤ rasterIndex p + n) := by
  have range := rasterIndex_bounds h
  induction n generalizing p with
  | zero => exact ⟨h, by simp only [ppuTicks]; omega, .inl, fun either => either.resolve_right (by omega)⟩
  | succ n ih =>
    obtain ⟨ok, index, complete⟩ := ppuTickOf_rasterIndex cart gray h
    obtain ⟨ok', index', complete'⟩ := ih ok (rasterIndex_bounds ok)
    refine ⟨ok', ?_, ?_⟩
    · rw [ppuTicks, index', index]
      omega
    · rw [ppuTicks, complete', complete, index, or_assoc]
      exact or_congr_right (by omega)

end ticks

/-- Settles O49, by induction on the number of ticks from what one tick does to the raster. -/
theorem frameCompletesEvery89342Ticks : Obligations.FrameCompletesEvery89342Ticks := by
  intro cart gray p n h
  obtain ⟨ok, index, complete⟩ := ppuTicks_rasterIndex cart gray n h
  exact ⟨index, ok, fun incomplete => by rw [complete, incomplete]; simp⟩

end Sys2Proof.Machine
end

section
/-! SUPPORT. Which CPU registers and status bits an instruction writes (R20 to R25). -/

namespace Sys2Proof.Machine

/-- The mnemonics of the storing instructions. -/
abbrev storers : List Mnemonic := [.sta, .stx, .sty]

/-- The mnemonics of the conditional branches. -/
abbrev branches : List Mnemonic := [.bcc, .bcs, .beq, .bne, .bmi, .bpl, .bvc, .bvs]

/-- From the first CPU to the second, only the registers and status bits change that the state rules let an instruction of the
mnemonic write (R20 to R25): O29 as a relation of the two CPUs. -/
def WrittenBy (m : Mnemonic) (c d : Cpu) : Prop :=
  let f := statusBits c.p
  let g := statusBits d.p
  let zn : List Mnemonic := [.lda, .ldx, .ldy, .tax, .tay, .txa, .tya, .tsx, .adc, .sbc, .cmp, .cpx, .cpy, .and, .ora,
    .eor, .bit, .inc, .dec, .inx, .iny, .dex, .dey, .asl, .lsr, .rol, .ror, .pla, .plp, .rti]
  (m ∉ ([.lda, .pla, .txa, .tya, .adc, .sbc, .and, .ora, .eor, .asl, .lsr, .rol, .ror] : List Mnemonic) → d.a = c.a) ∧
  (m ∉ ([.ldx, .tax, .tsx, .inx, .dex] : List Mnemonic) → d.x = c.x) ∧
  (m ∉ ([.ldy, .tay, .iny, .dey] : List Mnemonic) → d.y = c.y) ∧
  (m ∉ ([.txs, .pha, .php, .pla, .plp, .jsr, .rts, .brk, .rti] : List Mnemonic) → d.sp = c.sp) ∧
  (m ∉ ([.bcc, .bcs, .beq, .bne, .bmi, .bpl, .bvc, .bvs, .jmp, .jsr, .rts, .brk, .rti] : List Mnemonic) → d.pc = c.pc) ∧
  (m ∉ ([.adc, .sbc, .cmp, .cpx, .cpy, .asl, .lsr, .rol, .ror, .clc, .sec, .plp, .rti] : List Mnemonic) → g.c = f.c) ∧
  (m ∉ zn → g.z = f.z ∧ g.n = f.n) ∧
  (m ∉ ([.sei, .cli, .plp, .rti, .brk] : List Mnemonic) → g.i = f.i) ∧
  (m ∉ ([.sed, .cld, .plp, .rti] : List Mnemonic) → g.d = f.d) ∧
  (m ∉ ([.adc, .sbc, .bit, .clv, .plp, .rti] : List Mnemonic) → g.v = f.v) ∧
  (m ∉ ([.plp, .rti] : List Mnemonic) → g.b = f.b ∧ g.u = f.u)

/-- The cycle counter is no register of the rules R20 to R25. -/
theorem WrittenBy.withCycles {m : Mnemonic} {c d : Cpu} (h : WrittenBy m c d) (n : Nat) :
    WrittenBy m c { d with cycles := n } := h

/-- Only PLP and RTI write B and U (R26). -/
theorem WrittenBy.breakAndUnused {m : Mnemonic} {c d : Cpu} (h : WrittenBy m c d)
    (hm : m ∉ ([.plp, .rti] : List Mnemonic)) :
    (statusBits d.p).b = (statusBits c.p).b ∧ (statusBits d.p).u = (statusBits c.p).u := by
  obtain ⟨-, -, -, -, -, -, -, -, -, -, keeps⟩ := h
  exact keeps hm

theorem writtenBy_refl (m : Mnemonic) (c : Cpu) : WrittenBy m c c := by simp [WrittenBy]

/-- What a reading instruction writes. -/
theorem readEffect_writtenBy (m : Mnemonic) (v : Byte) (c : Cpu) : WrittenBy m c (readEffect m v c) := by
  cases m <;> simp [WrittenBy, readEffect, StatusBits.zn]

/-- What an instruction on registers only writes. -/
theorem setEffect_writtenBy (m : Mnemonic) (c : Cpu) : WrittenBy m c (setEffect m c) := by
  cases m <;> simp [WrittenBy, setEffect, StatusBits.zn]

/-- INC and DEC have no accumulator form (R212, R213). -/
theorem row_incDec_operand (i : Instr) :
    i.row.mnemonic = .inc ∨ i.row.mnemonic = .dec → i.row.operand ≠ .acc := by
  cases i <;> simp [Instr.row]

/-- What a read-modify-write instruction writes: A in the accumulator form, and C, Z and N. -/
theorem modifyFlags_writtenBy {m : Mnemonic} (h : m ∈ modifiers) (v a : Byte) (c : Cpu)
    (ha : m = .inc ∨ m = .dec → a = c.a) : WrittenBy m c { c with a := a, p := modifyFlags m v c.p } := by
  obtain ⟨hi, hd, hb, hu, hv, hc⟩ := modifyFlags_keep m v c.p
  simp only [List.mem_cons, List.not_mem_nil, or_false] at h
  rcases h with rfl | rfl | rfl | rfl | rfl | rfl <;> simp [WrittenBy, hi, hd, hb, hu, hv, hc, ha]

/-- What a branch writes: PC. -/
theorem branch_writtenBy {m : Mnemonic} (h : m ∈ branches) (a : Addr) (n : Nat) (c : Cpu) :
    WrittenBy m c { c with pc := a, cycles := n } := by
  simp only [List.mem_cons, List.not_mem_nil, or_false] at h
  rcases h with rfl | rfl | rfl | rfl | rfl | rfl | rfl | rfl <;> simp [WrittenBy]

/-- What each instruction writes. -/
theorem exec_writtenBy {i : Instr} {s t : State} (ht : exec i s = .next t) : WrittenBy i.row.mnemonic s.cpu t.cpu := by
  by_cases reads : i.row.mnemonic ∈ readers
  · rw [exec_reads reads] at ht
    cases ht
    exact (readEffect_writtenBy _ _ _).withCycles _
  by_cases stores : i.row.mnemonic ∈ storers
  · rw [exec_stores stores] at ht
    cases ht
    exact (writtenBy_refl _ s.cpu).withCycles _
  by_cases modifies : i.row.mnemonic ∈ modifiers
  · have noAcc := row_incDec_operand i
    rw [exec_modifies modifies] at ht
    by_cases acc : i.row.operand = .acc
    · rw [acc, modifyInstr_acc] at ht
      cases ht
      exact (modifyFlags_writtenBy modifies _ _ _ fun h => absurd acc (noAcc h)).withCycles _
    · rw [modifyInstr_eq _ _ _ acc] at ht
      cases ht
      exact (modifyFlags_writtenBy modifies _ s.cpu.a _ fun _ => rfl).withCycles _
  by_cases branch : i.row.mnemonic ∈ branches
  · obtain ⟨taken, eq⟩ := exec_branches branch s
    rw [eq, branchInstr_eq] at ht
    cases taken
    · cases ht
      exact (writtenBy_refl _ s.cpu).withCycles _
    · simp only [if_true] at ht
      cases ht
      exact branch_writtenBy branch _ _ s.cpu
  rw [exec_eq_meaning] at ht
  generalize i.row = r at ht reads stores modifies branch
  obtain ⟨op, m, o, base⟩ := r
  cases m
  case lda | ldx | ldy | adc | sbc | cmp | cpx | cpy | and | ora | eor | bit => exact absurd (by simp) reads
  case sta | stx | sty => exact absurd (by simp) stores
  case inc | dec | asl | lsr | rol | ror => exact absurd (by simp) modifies
  case bcc | bcs | beq | bne | bmi | bpl | bvc | bvs => exact absurd (by simp) branch
  case jmp | jsr | pha | php | illegal => cases ht; simp [WrittenBy]
  case pla | plp => cases ht; simp [WrittenBy, pullA, pullP, pull_eq, withZN_bits, StatusBits.zn]
  case rts => cases ht; simp [WrittenBy, returnFromSubroutine_eq]
  case rti => cases ht; simp [WrittenBy, returnFromInterrupt_eq]
  case brk => cases ht; simp [WrittenBy, enter_eq, withI_bits]
  all_goals cases ht; exact (setEffect_writtenBy _ s.cpu).withCycles _

/-- Settles O29, by the group of the instruction. -/
theorem registersHaveTheseWriters : Obligations.RegistersHaveTheseWriters :=
  fun _ _ _ ht => exec_writtenBy ht

end Sys2Proof.Machine
end

section
/-! SUPPORT. A property of states that each agent of the block keeps, every step keeps (R400, R417). -/

namespace Sys2Proof.Machine

/-- The second state differs from the first at most in what the host's bookkeeping and the clock change: the two latches and the
counter of free values of the PPU, the clock, the controller inputs, the calls and the reply. -/
def sameButHost (s t : State) : Prop :=
  t = { s with
    ppu := { s.ppu with
      frameComplete := t.ppu.frameComplete, nmiRequest := t.ppu.nmiRequest, freeCount := t.ppu.freeCount }
    bus := { s.bus with clock := t.bus.clock }
    ctrlIn0 := t.ctrlIn0, ctrlIn1 := t.ctrlIn1, calls := t.calls, reply := t.reply }

/-- A property of states that each agent of a step keeps: the CPU's accesses, ticks, entries and reset, the PPU tick, the DMA
micro-step of a running transfer, an insertion, and the host's bookkeeping. -/
structure KeptByAgents (I : State → Prop) : Prop where
  read : ∀ s a, I s → I (cpuRead s a).2
  write : ∀ s a d, I s → I (cpuWrite s a d)
  cpuTick : ∀ s t, cpuTick s = .next t → I s → I t
  cpuReset : ∀ s, I s → I (cpuReset s)
  raiseNmi : ∀ s, I s → I (raiseNmi s)
  raiseIrq : ∀ s, I s → I (raiseIrq s)
  ppuTick : ∀ s, I s → I (ppuTick s)
  dmaStep : ∀ s, s.bus.dmaTransfer = true → I s → I (dmaStep s)
  insert : ∀ (s : State) (c : Cartridge), c.wf = true → I s → I { s with cart := some c }
  host : ∀ s t, sameButHost s t → I s → I t

/-! ## A port access is a CPU access -/

/-- The CPU address of a PPU port (R71). -/
def portAddress (port : BitVec 3) : Addr := 0x2000 + port.setWidth 16

theorem portAddress_port (port : BitVec 3) : (portAddress port).extractLsb' 0 3 = port := by
  revert port; decide

theorem portAddress_bounds (port : BitVec 3) : 0x2000 ≤ (portAddress port).toNat ∧ (portAddress port).toNat ≤ 0x3FFF := by
  revert port; decide

/-- A CPU read of a port's address is the port read (R71). -/
theorem cpuRead_portAddress (s : State) (port : BitVec 3) :
    (cpuRead s (portAddress port)).2 = s.setPpu (ppuPortRead s.cart s.params.grayMask s.ppu port).2 := by
  obtain ⟨low, high⟩ := portAddress_bounds port
  unfold cpuRead
  rw [cpuRead_unclaimed s (.inl (by omega))]
  dsimp only
  rw [if_neg (by omega), if_pos high, portAddress_port]

/-- A CPU write of a port's address is the port write (R72). -/
theorem cpuWrite_portAddress (s : State) (port : BitVec 3) (d : Byte) :
    cpuWrite s (portAddress port) d = s.setPpu (ppuPortWrite s.cart s.ppu port d) := by
  obtain ⟨low, high⟩ := portAddress_bounds port
  unfold cpuWrite
  rw [cpuWrite_unclaimed s (by omega), if_neg (by simp), if_neg (by omega), if_pos high, portAddress_port]

/-! ## Every step -/

section kept
variable {I : State → Prop} (h : KeptByAgents I)
include h

theorem KeptByAgents.cpuSlot {s t : State} (ht : cpuSlot s = .next t) (hs : I s) : I t := by
  obtain ⟨-, running, rfl⟩ | ⟨-, -, tick⟩ | ⟨-, rfl⟩ := cpuSlot_cases ht
  · exact h.dmaStep s running hs
  · exact h.cpuTick s t tick hs
  · exact hs

theorem KeptByAgents.endBusTick {s : State} (hs : I s) : I (endBusTick s) := by
  obtain ⟨-, eq⟩ | ⟨-, n, rfl, eq⟩ := endBusTick_cases s
  · rw [eq]
    exact h.host s _ rfl hs
  · rw [eq]
    exact h.host _ _ rfl (h.raiseNmi _ (h.host s _ rfl hs))

theorem KeptByAgents.busTick {s t : State} (ht : busTick s = .next t) (hs : I s) : I t := by
  obtain ⟨u, slot, rfl⟩ := busTick_cases ht
  exact h.endBusTick (h.cpuSlot slot (h.ppuTick s hs))

theorem KeptByAgents.makeCall {c : HostCall} {s t : State} (ht : makeCall c s = .next t) (hs : I s) : I t := by
  cases c with
  | busTick => exact h.busTick ht hs
  | busReset => cases ht; exact h.host _ _ rfl (h.cpuReset s hs)
  | insertCartridge c =>
    simp only [Machine.makeCall] at ht
    split at ht
    · rename_i wf
      cases ht
      exact h.insert s c wf hs
    · cases ht
  | cpuRead a isPeek =>
    cases isPeek <;> cases ht
    · exact h.host _ _ rfl (h.read s a hs)
    · exact h.host s _ rfl hs
  | cpuWrite a d => cases ht; exact h.write s a d hs
  | cpuTick => exact h.cpuTick s t ht hs
  | cpuReset => cases ht; exact h.cpuReset s hs
  | raiseIrq => cases ht; exact h.raiseIrq s hs
  | raiseNmi => cases ht; exact h.raiseNmi s hs
  | ppuTick => cases ht; exact h.ppuTick s hs
  | ppuRead port isPeek =>
    cases isPeek <;> cases ht
    · have := h.read s (portAddress port) hs
      rw [cpuRead_portAddress] at this
      exact h.host _ _ rfl this
    · exact h.host s _ rfl hs
  | ppuWrite port d =>
    cases ht
    rw [← cpuWrite_portAddress]
    exact h.write s _ d hs
  | setControllers | isInstructionComplete | takeFrameComplete | takeNmiRequest | getRenderedFrame =>
    cases ht; exact h.host s _ rfl hs

/-- Every step keeps what each agent keeps. -/
theorem KeptByAgents.step {s t : State} (ht : step s = .next t) (hs : I s) : I t := by
  obtain ⟨c, rest, -, -, call⟩ := step_cases ht
  exact h.makeCall call (h.host s _ rfl hs)

end kept

/-! ## Where the agents' conditions come from -/

/-- A property that sees nothing of what CPU reads and writes can change is kept by them. -/
theorem keptByBus_of_frame {I : State → Prop} (h : ∀ s t, sameButBus s t → I s → I t) : KeptByBus I where
  read s a hs := h s _ (sameButBus_of_reads (cpuRead_frame s a)) hs
  write s a d hs := h s _ (cpuWrite_frame s a d) hs
  cpu s c hs := h s _ (sameButBus_withCpu (sameButBus_refl s) c) hs

/-- A property that CPU reads, CPU writes and changes of CPU registers keep is kept by all the CPU does; the other agents
remain. -/
theorem KeptByBus.agents {I : State → Prop} (h : KeptByBus I) (ppuTick : ∀ s, I s → I (ppuTick s))
    (dmaStep : ∀ s, s.bus.dmaTransfer = true → I s → I (dmaStep s))
    (insert : ∀ (s : State) (c : Cartridge), c.wf = true → I s → I { s with cart := some c })
    (host : ∀ s t, sameButHost s t → I s → I t) : KeptByAgents I where
  read := h.read
  write := h.write
  cpuTick _ _ ht hs := h.cpuTick hs ht
  cpuReset _ hs := h.cpuReset hs
  raiseNmi _ hs := h.raiseNmi hs
  raiseIrq _ hs := h.raiseIrq hs
  ppuTick := ppuTick
  dmaStep := dmaStep
  insert := insert
  host := host

/-- A DMA micro-step changes OAM, the DMA registers and what a CPU read changes (R405). -/
theorem dmaStep_eq (s : State) : dmaStep s =
    { s with
      ppu := { s.ppu with
        oam := (dmaStep s).ppu.oam
        status := { s.ppu.status with verticalBlank := (dmaStep s).ppu.status.verticalBlank }
        v := (dmaStep s).ppu.v, w := (dmaStep s).ppu.w, dataBuffer := (dmaStep s).ppu.dataBuffer }
      bus := (dmaStep s).bus } := by
  unfold dmaStep
  dsimp only
  split
  · split <;> rfl
  split
  · have frame := cpuRead_frame s (word s.bus.dmaPage s.bus.dmaAddr)
    have cpu := cpuRead_cpu s (word s.bus.dmaPage s.bus.dmaAddr)
    generalize cpuRead s (word s.bus.dmaPage s.bus.dmaAddr) = r at frame cpu ⊢
    unfold sameButReads at frame
    rw [frame, cpu]
    rfl
  · split <;> rfl

end Sys2Proof.Machine
end

section
/-! SUPPORT. The status bits and the cycle counter (R26, R27). -/

namespace Sys2Proof.Machine

/-- The condition of R26 by the bits of P. -/
theorem statusOk_iff (p : Byte) : p &&& 0x30 = 0x20 ↔ (statusBits p).b = false ∧ (statusBits p).u = true := by
  revert p; decide

/-- A pulled status meets R26 whatever byte was pulled (R263, R278). -/
theorem pulledStatus_ok (b : Byte) : pulledStatus b &&& 0x30 = 0x20 := by
  rw [statusOk_iff, pulledStatus_bits, statusBits_byte]
  exact ⟨rfl, rfl⟩

/-- PLP and RTI give P a pulled status (R263, R278). -/
theorem exec_pullsStatus {i : Instr} {s t : State} (h : i.row.mnemonic ∈ ([.plp, .rti] : List Mnemonic))
    (ht : exec i s = .next t) : ∃ b, t.cpu.p = pulledStatus b := by
  rw [exec_eq_meaning] at ht
  generalize i.row = r at h ht
  obtain ⟨op, m, o, base⟩ := r
  simp only [List.mem_cons, List.not_mem_nil, or_false] at h
  rcases h with rfl | rfl
  · cases ht; exact ⟨_, rfl⟩
  · cases ht; exact ⟨_, congrArg (fun x => x.cpu.p) (returnFromInterrupt_eq s)⟩

/-- Every instruction keeps the status bits and sets a counter in range. -/
theorem exec_cpuOk {i : Instr} {s t : State} (ht : exec i s = .next t) (hs : s.cpu.Ok) : t.cpu.Ok := by
  refine ⟨?_, (exec_count ht).2⟩
  by_cases pulls : i.row.mnemonic ∈ ([.plp, .rti] : List Mnemonic)
  · obtain ⟨b, eq⟩ := exec_pullsStatus pulls ht
    rw [eq]
    exact pulledStatus_ok b
  · obtain ⟨b, u⟩ := (exec_writtenBy ht).breakAndUnused pulls
    rw [statusOk_iff, b, u, ← statusOk_iff]
    exact hs.1

/-- The condition looks at P and the counter only. -/
theorem cpuOk_congr {c d : Cpu} (p : d.p = c.p) (cycles : d.cycles = c.cycles) (h : c.Ok) : d.Ok := by
  unfold Cpu.Ok
  rw [p, cycles]
  exact h

/-- The bytes of an instruction are read without a change of P or the counter (R151). -/
theorem readCode_cpuOk {s : State} (h : s.cpu.Ok) : (readCode s).2.cpu.Ok :=
  cpuOk_congr (by simp [readCode]) (by simp [readCode]) h

theorem fetch_cpuOk {s : State} (h : s.cpu.Ok) : (fetch s).2.cpu.Ok := by
  unfold fetch
  dsimp only
  split
  · exact readCode_cpuOk h
  split
  · exact readCode_cpuOk (readCode_cpuOk h)
  · exact readCode_cpuOk (readCode_cpuOk (readCode_cpuOk h))

theorem countDown_cpuOk {s : State} (h : s.cpu.Ok) : (countDown s).cpu.Ok :=
  ⟨h.1, Nat.le_trans (Nat.sub_le _ _) h.2⟩

theorem cpuTick_cpuOk {s t : State} (ht : cpuTick s = .next t) (h : s.cpu.Ok) : t.cpu.Ok := by
  unfold cpuTick at ht
  split at ht
  · obtain ⟨u, run⟩ := exec_next (fetch s).1 (fetch s).2
    dsimp only at ht
    rw [run] at ht
    cases ht
    exact countDown_cpuOk (exec_cpuOk run (fetch_cpuOk h))
  · cases ht
    exact countDown_cpuOk h

/-- An entry sets I only (R444), and its count is in range (R445, R446). -/
theorem enter_cpuOk {s : State} (vector : Addr) (b : Bool) {n : Nat} (hn : n ≤ 8) (h : s.cpu.Ok) :
    ((enter vector b s).setCycles n).cpu.Ok := by
  refine ⟨?_, hn⟩
  simp only [enter_eq, State.setCycles_p]
  rw [statusOk_iff, withI_bits, statusBits_byte, ← statusOk_iff]
  exact h.1

/-- CPU reset (R443). -/
theorem cpuReset_cpuOk (s : State) : (cpuReset s).cpu.Ok := by
  show (0x20 : Byte) &&& 0x30 = 0x20 ∧ 8 ≤ 8
  decide

/-- Every agent keeps the status bits and the counter's bound. -/
theorem cpuOk_kept : KeptByAgents fun s => s.cpu.Ok where
  read s a h := by rw [cpuRead_cpu]; exact h
  write s a d h := by rw [cpuWrite_cpu]; exact h
  cpuTick _ _ ht h := cpuTick_cpuOk ht h
  cpuReset s _ := cpuReset_cpuOk s
  raiseNmi _ h := enter_cpuOk _ _ (Nat.le_refl 8) h
  raiseIrq s h := by
    unfold raiseIrq
    split
    · exact h
    · exact enter_cpuOk _ _ (by decide) h
  ppuTick _ h := h
  dmaStep s _ h := by rw [dmaStep_eq]; exact h
  insert _ _ _ h := h
  host s t same h := by unfold sameButHost at same; rw [same]; exact h

/-- Settles O58: each agent of a step keeps the condition, the instructions by O29. -/
theorem stepKeepsTheStatusInvariant : Obligations.StepKeepsTheStatusInvariant :=
  fun _ _ hs ht => cpuOk_kept.step ht hs

end Sys2Proof.Machine
end

section
/-! SUPPORT. The memories, the raster, the sprite buffer, the DMA flags and the cartridge. -/

namespace Sys2Proof.Machine

/-! ## The memories -/

/-- Every agent keeps the memories. -/
theorem memoriesOk_keptByAgents : KeptByAgents fun s => s.ppu.MemoriesOk ∧ s.bus.MemoryOk :=
  memoriesOk_kept.agents
    (ppuTick := fun s h => ⟨ppuTickOf_memoriesOk s.cart s.params.grayMask h.1, h.2⟩)
    (dmaStep := fun _ _ h => dmaStep_memoriesOk h)
    (insert := fun _ _ _ h => h)
    (host := fun s t same h => by unfold sameButHost at same; rw [same]; exact h)

/-- Settles O59: each agent of a step keeps the memories. -/
theorem stepKeepsTheMemories : Obligations.StepKeepsTheMemories :=
  fun _ _ hp hb ht => memoriesOk_keptByAgents.step ht ⟨hp, hb⟩

/-! ## The raster, the sprite buffer and the cartridge -/

/-- The condition by the sizes of the buffer that `spritesOf` shows. -/
theorem spritesOk_congr {p q : Ppu} (same : spritesOf q = spritesOf p) (h : p.SpritesOk) : q.SpritesOk := by
  simp only [spritesOf, Prod.mk.injEq] at same
  obtain ⟨spr, count, -⟩ := same
  unfold Ppu.SpritesOk
  rw [spr, count]
  exact h

theorem clearAtPreRender_spritesOk {p : Ppu} (h : p.SpritesOk) : (clearAtPreRender p).SpritesOk :=
  ⟨by rw [← h.1]; exact List.length_map _, h.2⟩

theorem shiftSprites_spritesOk (cy : Nat) {p : Ppu} (h : p.SpritesOk) : (shiftSprites cy p).SpritesOk := by
  refine ⟨by rw [shiftSprites_length]; exact h.1, ?_⟩
  unfold shiftSprites
  split <;> exact h.2

theorem spriteEvaluation_spritesOk (sl : Int) (p : Ppu) : (spriteEvaluation sl p).SpritesOk :=
  ⟨spriteEvaluation_length sl p, Nat.min_le_right _ 8⟩

theorem spriteFetch_spritesOk (cart : Option Cartridge) (gray : BitVec 6) (sl : Int) {p : Ppu} (h : p.SpritesOk) :
    (spriteFetch cart gray sl p).SpritesOk :=
  ⟨by rw [spriteFetch_length]; exact h.1, h.2⟩

/-- Step 1 of a tick keeps the sprite buffer's sizes, whichever of its parts runs (R342, R345, R360, R364). -/
theorem afterRender_spritesOk (cart : Option Cartridge) (gray : BitVec 6) {p : Ppu} (h : p.SpritesOk) :
    (afterRender cart gray p).SpritesOk := by
  have render := afterRender_sprites cart gray p
  split at render; · exact spritesOk_congr render (clearAtPreRender_spritesOk h)
  split at render; · exact spritesOk_congr render (spriteEvaluation_spritesOk _ p)
  split at render; · exact spritesOk_congr render (spriteFetch_spritesOk cart gray _ h)
  split at render; · exact spritesOk_congr render (shiftSprites_spritesOk _ h)
  · exact spritesOk_congr render h

/-- A PPU tick keeps the sprite buffer's sizes. -/
theorem ppuTickOf_spritesOk (cart : Option Cartridge) (gray : BitVec 6) {p : Ppu} (h : p.SpritesOk) :
    (ppuTickOf cart gray p).SpritesOk := by
  obtain ⟨spr, count, -⟩ := ppuTickOf_spr cart gray p
  unfold Ppu.SpritesOk
  rw [spr, count]
  exact afterRender_spritesOk cart gray h

/-- Every agent keeps the three conditions: only the PPU tick and an insertion change what they see. -/
theorem rasterSpritesCartridge_kept :
    KeptByAgents fun s => s.ppu.RasterOk ∧ s.ppu.SpritesOk ∧ s.CartridgeOk :=
  (keptByBus_of_frame fun s t same h => by unfold sameButBus at same; rw [same]; exact h).agents
    (ppuTick := fun s ⟨raster, sprites, cartridge⟩ =>
      ⟨(ppuTickOf_rasterIndex s.cart s.params.grayMask raster).1,
        ppuTickOf_spritesOk s.cart s.params.grayMask sprites, cartridge⟩)
    (dmaStep := fun s _ h => by rw [dmaStep_eq]; exact h)
    (insert := fun s c wf ⟨raster, sprites, _⟩ => ⟨raster, sprites, fun c' eq => by cases eq; exact wf⟩)
    (host := fun s t same h => by unfold sameButHost at same; rw [same]; exact h)

/-! ## The DMA flags -/

/-- The condition asks nothing while a transfer runs. -/
theorem dmaOk_of_running {b : Bus} (h : b.dmaTransfer = true) : b.DmaOk := fun off => by
  rw [h] at off
  cases off

theorem dmaOk_congr {b c : Bus} (transfer : c.dmaTransfer = b.dmaTransfer) (dummy : c.dmaDummy = b.dmaDummy)
    (addr : c.dmaAddr = b.dmaAddr) (h : b.DmaOk) : c.DmaOk := by
  unfold Bus.DmaOk
  rw [transfer, dummy, addr]
  exact h

/-- A write starts a transfer or leaves the flags alone (R404). -/
theorem cpuWrite_dmaOk {s : State} (a : Addr) (d : Byte) (h : s.bus.DmaOk) : (cpuWrite s a d).bus.DmaOk := by
  unfold cpuWrite
  split; · exact h
  split; · exact h
  split; · exact h
  split; · exact dmaOk_of_running rfl
  split; · exact h
  split <;> exact h

/-- A running transfer goes on, or ends with the flags armed (R405). -/
theorem dmaStep_dmaOk {s : State} (running : s.bus.dmaTransfer = true) : (dmaStep s).bus.DmaOk := by
  unfold dmaStep
  dsimp only
  split
  · split
    · exact dmaOk_of_running running
    · exact dmaOk_of_running running
  split
  · exact dmaOk_of_running (by rw [← running]; exact cpuRead_bus_dmaTransfer s _)
  split
  · exact fun _ => ⟨rfl, rfl⟩
  · exact dmaOk_of_running running

theorem dmaOk_keptByBus : KeptByBus fun s => s.bus.DmaOk where
  read s a h := dmaOk_congr (by simp) (by simp) (by simp) h
  write _ a d h := cpuWrite_dmaOk a d h
  cpu _ _ h := h

/-- Every agent keeps the flags' condition: only a write and a DMA micro-step touch it. -/
theorem dmaOk_kept : KeptByAgents fun s => s.bus.DmaOk :=
  dmaOk_keptByBus.agents
    (ppuTick := fun _ h => h)
    (dmaStep := fun _ running _ => dmaStep_dmaOk running)
    (insert := fun _ _ _ h => h)
    (host := fun s t same h => by unfold sameButHost at same; rw [same]; exact h)

/-- Settles O60: each agent of a step keeps the conditions. -/
theorem stepKeepsRasterSpritesAndDma : Obligations.StepKeepsRasterSpritesAndDma := by
  intro s t raster sprites dma cartridge ht
  obtain ⟨raster', sprites', cartridge'⟩ := rasterSpritesCartridge_kept.step ht ⟨raster, sprites, cartridge⟩
  exact ⟨raster', sprites', dmaOk_kept.step ht dma, cartridge'⟩

end Sys2Proof.Machine
end

section
/-! SUPPORT. The reset state (R58, R481). -/

namespace Sys2Proof.Machine

/-- Settles O34: the two calls, in order. -/
theorem resetStateComesFromTheStartSequence : Obligations.ResetStateComesFromTheStartSequence :=
  ⟨{ State.powerOn with cart := some Config.blankCartridge, calls := [.busReset] },
    (step_call rfl rfl).trans rfl, (step_call rfl rfl).trans rfl⟩

/-- Settles O57, part by part. -/
theorem resetMeetsTheInvariants : Obligations.ResetMeetsTheInvariants where
  cpu := ⟨rfl, Nat.le_refl 8⟩
  ppuMemories := reset_memoriesOk.1
  raster := ⟨by decide, by decide, by decide⟩
  sprites := ⟨rfl, Nat.zero_le 8⟩
  dma := fun _ => ⟨rfl, rfl⟩
  ram := reset_memoriesOk.2
  cartridge := fun c eq => by cases eq; decide

end Sys2Proof.Machine
end

section
/-! SUPPORT. The CPU address decoder, arm by arm (R71, R72, R77, R79): what an access of each range gives and changes. -/

namespace Sys2Proof.Machine

section decoder
variable (s : State) {a : Addr} (d : Byte)

/-- From 0x8000 up the inserted cartridge answers a read with its PRG byte (R79). -/
theorem cpuRead_prg {c : Cartridge} (inserted : s.cart = some c) (h : 0x8000 ≤ a.toNat) :
    cpuRead s a = (c.prg.read (c.prgOffset a), s) := by
  have claimed : (s.cart.bind fun c => c.cpuRead a) = some (c.prg.read (c.prgOffset a)) := by
    rw [inserted]
    exact if_pos h
  unfold cpuRead
  rw [claimed]

theorem cpuRead_ram (h : a.toNat ≤ 0x1FFF) : cpuRead s a = (s.bus.ram.read (a.toNat % 0x800), s) := by
  unfold cpuRead
  rw [cpuRead_unclaimed s (.inl (by omega)), ← ramOffset_eq]
  exact if_pos h

theorem cpuRead_port (low : 0x2000 ≤ a.toNat) (high : a.toNat ≤ 0x3FFF) :
    cpuRead s a =
      ((ppuPortRead s.cart s.params.grayMask s.ppu (BitVec.ofNat 3 a.toNat)).1,
       s.setPpu (ppuPortRead s.cart s.params.grayMask s.ppu (BitVec.ofNat 3 a.toNat)).2) := by
  unfold cpuRead
  rw [cpuRead_unclaimed s (.inl (by omega)), ← port_eq]
  exact (if_neg (by omega)).trans (if_pos high)

theorem cpuRead_controller0 :
    cpuRead s 0x4016 = (controllerBit s.bus.ctrlShift0, s.setBus { s.bus with ctrlShift0 := s.bus.ctrlShift0 <<< 1 }) := by
  unfold cpuRead
  rw [cpuRead_unclaimed s (.inl (by decide))]
  rfl

theorem cpuRead_controller1 :
    cpuRead s 0x4017 = (controllerBit s.bus.ctrlShift1, s.setBus { s.bus with ctrlShift1 := s.bus.ctrlShift1 <<< 1 }) := by
  unfold cpuRead
  rw [cpuRead_unclaimed s (.inl (by decide))]
  rfl

/-- Above the ports a read that no device and no cartridge takes gives 0x00 and changes nothing (R77). -/
theorem cpuRead_unmapped (low : 0x4000 ≤ a.toNat) (not0 : a ≠ 0x4016) (not1 : a ≠ 0x4017)
    (free : a.toNat < 0x8000 ∨ s.cart = none) : cpuRead s a = (0, s) := by
  unfold cpuRead
  rw [cpuRead_unclaimed s free]
  dsimp only
  rw [if_neg (by omega), if_neg (by omega), if_neg not0, if_neg not1]

theorem cpuWrite_ram (h : a.toNat ≤ 0x1FFF) :
    cpuWrite s a d = s.setBus { s.bus with ram := s.bus.ram.write (a.toNat % 0x800) d } := by
  unfold cpuWrite
  rw [cpuWrite_unclaimed s (by omega), ← ramOffset_eq, if_neg Bool.false_ne_true, if_pos h]

theorem cpuWrite_port (low : 0x2000 ≤ a.toNat) (high : a.toNat ≤ 0x3FFF) :
    cpuWrite s a d = s.setPpu (ppuPortWrite s.cart s.ppu (BitVec.ofNat 3 a.toNat) d) := by
  unfold cpuWrite
  rw [cpuWrite_unclaimed s (by omega), ← port_eq, if_neg Bool.false_ne_true, if_neg (by omega), if_pos high]

/-- A write of 0x4014 starts a transfer (R404). -/
theorem cpuWrite_dma :
    cpuWrite s 0x4014 d = s.setBus { s.bus with dmaPage := d, dmaAddr := 0, dmaTransfer := true } := by
  unfold cpuWrite
  rw [cpuWrite_unclaimed s (by decide)]
  rfl

theorem cpuWrite_controller0 : cpuWrite s 0x4016 d = s.setBus { s.bus with ctrlShift0 := s.ctrlIn0 } := by
  unfold cpuWrite
  rw [cpuWrite_unclaimed s (by decide)]
  rfl

theorem cpuWrite_controller1 : cpuWrite s 0x4017 d = s.setBus { s.bus with ctrlShift1 := s.ctrlIn1 } := by
  unfold cpuWrite
  rw [cpuWrite_unclaimed s (by decide)]
  rfl

/-- Above the ports a write that no device takes changes nothing, with a cartridge or without (R72, R79). -/
theorem cpuWrite_unmapped (low : 0x4000 ≤ a.toNat) (notDma : a ≠ 0x4014) (not0 : a ≠ 0x4016) (not1 : a ≠ 0x4017) :
    cpuWrite s a d = s := by
  have notRam : ¬a.toNat ≤ 0x1FFF := by omega
  have notPort : ¬a.toNat ≤ 0x3FFF := by omega
  simp only [cpuWrite, notRam, notPort, notDma, not0, not1, if_false, ite_self]

end decoder

/-- Settles O41, range by range. -/
theorem cpuReadDecoding : Obligations.CpuReadDecoding := by
  intro s a
  refine ⟨fun c inserted high => ⟨?_, fun d => cpuWrite_above s d (by omega)⟩, cpuRead_ram s, cpuRead_port s, ?_, ?_,
    fun low not0 not1 free =>
      ⟨cpuRead_unmapped s low not0 not1 free, fun notDma d => cpuWrite_unmapped s d low notDma not0 not1⟩⟩
  · rw [cpuRead_prg s inserted high, Cartridge.prgOffset_eq]
  · rintro rfl; exact cpuRead_controller0 s
  · rintro rfl; exact cpuRead_controller1 s

/-- Settles O42, range by range. -/
theorem cpuWriteDecoding : Obligations.CpuWriteDecoding := by
  intro s a d
  refine ⟨fun high => cpuWrite_above s d (by omega), cpuWrite_ram s d, cpuWrite_port s d, ?_, ?_, ?_,
    fun low _ => cpuWrite_unmapped s d low⟩
  · rintro rfl; exact cpuWrite_dma s d
  · rintro rfl; exact cpuWrite_controller0 s d
  · rintro rfl; exact cpuWrite_controller1 s d

/-- Settles O43: both accesses take the RAM arm, with the address modulo 0x800. -/
theorem ramIsMirrored : Obligations.RamIsMirrored := by
  intro s a a' d low low'
  rw [cpuRead_ram _ low', cpuWrite_ram s d low, cpuRead_ram s low', State.setBus_bus, Memory.read_write]
  simp only [eq_comm]

end Sys2Proof.Machine
end

section
/-! SUPPORT. The PPU address space, range by range, with a cartridge inserted (R80, R320, R321, R323, R324). An address counts
modulo 0x4000. -/

namespace Sys2Proof.Machine

/-- `PalIndex` of an address modulo 0x4000 (R324). -/
def paletteEntry (n : Nat) : Nat := if n % 4 = 0 ∧ 16 ≤ n % 32 then n % 32 - 16 else n % 32

theorem palIndex_eq_paletteEntry (a : Addr) : palIndex (a.setWidth 14) = paletteEntry (a.toNat % 0x4000) := by
  rw [palIndex_eq, paletteEntry, Nat.mod_mod_of_dvd _ (by decide), Nat.mod_mod_of_dvd _ (by decide)]

/-- The bank of a nametable address by the cartridge's mode: bit 11 or bit 10 (R323). -/
theorem nametableBank_inserted (c : Cartridge) (a : Addr) :
    nametableBank (some c) (a.setWidth 14) = if c.mirroring = .horizontal then a.getLsbD 11 else a.getLsbD 10 := by
  simp [nametableBank, mirrorsHorizontally]

section ranges
variable (c : Cartridge) (gray : BitVec 6) (p : Ppu) {a a' : Addr} (d : Byte)

/-- A read of pattern space: the cartridge's CHR byte when it has a bank, else the PPU's own (R80). -/
theorem ppuRead_pattern (h : a.toNat % 0x4000 ≤ 0x1FFF) :
    ppuRead (some c) gray p a =
      if 1 ≤ c.chrBanks then c.chr.read (a.toNat % 0x4000) else p.pat.read (a.toNat % 0x4000) := by
  simp only [ppuRead, ppuAddress_toNat, Option.bind_some, Cartridge.ppuRead, h, true_and, if_true]
  by_cases chr : 1 ≤ c.chrBanks <;> simp only [chr, if_true, if_false]

theorem ppuRead_pattern_none (h : a.toNat % 0x4000 ≤ 0x1FFF) :
    ppuRead none gray p a = p.pat.read (a.toNat % 0x4000) := by
  simp only [ppuRead, ppuAddress_toNat, Option.bind_none, h, if_true]

theorem ppuRead_nametable (low : 0x2000 ≤ a.toNat % 0x4000) (high : a.toNat % 0x4000 ≤ 0x3EFF) :
    ppuRead (some c) gray p a =
      (if nametableBank (some c) (a.setWidth 14) then p.nt1 else p.nt0).read (a.toNat % 0x4000 % 0x400) := by
  have above : ¬a.toNat % 0x4000 ≤ 0x1FFF := by omega
  simp only [ppuRead, ppuAddress_toNat, Option.bind_some, c.ppuRead_above low, nametableOffset_eq, above, high, if_true,
    if_false]

theorem ppuRead_palette (low : 0x3F00 ≤ a.toNat % 0x4000) :
    ppuRead (some c) gray p a = p.pal.read (paletteEntry (a.toNat % 0x4000)) &&& paletteMask gray p := by
  have above : ¬a.toNat % 0x4000 ≤ 0x1FFF := by omega
  have above' : ¬a.toNat % 0x4000 ≤ 0x3EFF := by omega
  simp only [ppuRead, ppuAddress_toNat, Option.bind_some, c.ppuRead_above (by omega : 0x2000 ≤ a.toNat % 0x4000),
    palIndex_eq_paletteEntry, above, above', if_false]

/-- A write of pattern space reaches the PPU's own memory, never the cartridge (R80). -/
theorem ppuWrite_pattern (h : a.toNat % 0x4000 ≤ 0x1FFF) :
    ppuWrite (some c) p a d = { p with pat := p.pat.write (a.toNat % 0x4000) d } := by
  simp only [ppuWrite, ppuAddress_toNat, Option.any_some, Cartridge.ppuWriteClaims, Bool.false_eq_true, h, if_true, if_false]

theorem ppuWrite_nametable (low : 0x2000 ≤ a.toNat % 0x4000) (high : a.toNat % 0x4000 ≤ 0x3EFF) :
    ppuWrite (some c) p a d =
      let k := a.toNat % 0x4000 % 0x400
      { p with
        nt0 := if nametableBank (some c) (a.setWidth 14) then p.nt0 else p.nt0.write k d
        nt1 := if nametableBank (some c) (a.setWidth 14) then p.nt1.write k d else p.nt1 } := by
  have above : ¬a.toNat % 0x4000 ≤ 0x1FFF := by omega
  simp only [ppuWrite, ppuAddress_toNat, Option.any_some, Cartridge.ppuWriteClaims, Bool.false_eq_true, nametableOffset_eq,
    above, high, if_true, if_false]
  split <;> rfl

theorem ppuWrite_palette (low : 0x3F00 ≤ a.toNat % 0x4000) :
    ppuWrite (some c) p a d = { p with pal := p.pal.write (paletteEntry (a.toNat % 0x4000)) d } := by
  have above : ¬a.toNat % 0x4000 ≤ 0x1FFF := by omega
  have above' : ¬a.toNat % 0x4000 ≤ 0x3EFF := by omega
  simp only [ppuWrite, ppuAddress_toNat, Option.any_some, Cartridge.ppuWriteClaims, Bool.false_eq_true,
    palIndex_eq_paletteEntry, above, above', if_false]

/-- Every PPU address is in pattern space, in a nametable or in the palette (R320). -/
theorem ppuAddress_ranges (a : Addr) :
    a.toNat % 0x4000 ≤ 0x1FFF ∨ (0x2000 ≤ a.toNat % 0x4000 ∧ a.toNat % 0x4000 ≤ 0x3EFF) ∨ 0x3F00 ≤ a.toNat % 0x4000 := by
  omega

/-- After a write of pattern space a read gives the byte at the same address, unless the cartridge's CHR hides it. -/
theorem ppuRead_ppuWrite_pattern (h : a.toNat % 0x4000 ≤ 0x1FFF) :
    ppuRead (some c) gray (ppuWrite (some c) p a d) a' =
      if a'.toNat % 0x4000 = a.toNat % 0x4000 ∧ c.chrBanks = 0 then d else ppuRead (some c) gray p a' := by
  rw [ppuWrite_pattern c p d h]
  obtain low | ⟨low, high⟩ | low := ppuAddress_ranges a'
  · have noChr : c.chrBanks = 0 ↔ ¬1 ≤ c.chrBanks := by omega
    by_cases chr : 1 ≤ c.chrBanks <;> simp [ppuRead_pattern c gray _ low, Memory.read_write, noChr, chr]
  · rw [if_neg (by omega), ppuRead_nametable c gray _ low high, ppuRead_nametable c gray _ low high]
  · rw [if_neg (by omega), ppuRead_palette c gray _ low, ppuRead_palette c gray _ low]; rfl

/-- After a write of a nametable a read gives the byte wherever the two addresses name the same place of the same bank. -/
theorem ppuRead_ppuWrite_nametable (h : 0x2000 ≤ a.toNat % 0x4000) (h' : a.toNat % 0x4000 ≤ 0x3EFF) :
    ppuRead (some c) gray (ppuWrite (some c) p a d) a' =
      if (0x2000 ≤ a'.toNat % 0x4000 ∧ a'.toNat % 0x4000 ≤ 0x3EFF) ∧
          nametableBank (some c) (a'.setWidth 14) = nametableBank (some c) (a.setWidth 14) ∧
          a'.toNat % 0x4000 % 0x400 = a.toNat % 0x4000 % 0x400 then d
      else ppuRead (some c) gray p a' := by
  rw [ppuWrite_nametable c p d h h']
  obtain low | ⟨low, high⟩ | low := ppuAddress_ranges a'
  · have below : ¬0x2000 ≤ a'.toNat % 0x4000 := by omega
    simp only [ppuRead_pattern c gray _ low, below, false_and, if_false]
  · simp only [ppuRead_nametable c gray _ low high, low, high, true_and]
    cases nametableBank (some c) (a.setWidth 14) <;> cases nametableBank (some c) (a'.setWidth 14) <;>
      simp [Memory.read_write]
  · have above : ¬a'.toNat % 0x4000 ≤ 0x3EFF := by omega
    simp only [ppuRead_palette c gray _ low, above, and_false, false_and, if_false]
    rfl

/-- After a write of the palette a read gives the byte, masked, at every alias of the entry. -/
theorem ppuRead_ppuWrite_palette (h : 0x3F00 ≤ a.toNat % 0x4000) :
    ppuRead (some c) gray (ppuWrite (some c) p a d) a' =
      if 0x3F00 ≤ a'.toNat % 0x4000 ∧ paletteEntry (a'.toNat % 0x4000) = paletteEntry (a.toNat % 0x4000) then
        d &&& paletteMask gray p
      else ppuRead (some c) gray p a' := by
  rw [ppuWrite_palette c p d h]
  obtain low | ⟨low, high⟩ | low := ppuAddress_ranges a'
  · rw [if_neg (by omega), ppuRead_pattern c gray _ low, ppuRead_pattern c gray _ low]
  · rw [if_neg (by omega), ppuRead_nametable c gray _ low high, ppuRead_nametable c gray _ low high]
  · rw [ppuRead_palette c gray _ low, ppuRead_palette c gray _ low, Memory.read_write]
    simp only [low, true_and]
    split <;> rfl

end ranges

/-- Settles O48: each clause is the law of its range. -/
theorem nametablesAndPaletteAreMirrored : Obligations.NametablesAndPaletteAreMirrored := by
  intro c gray p a a' d
  dsimp only
  simp only [← nametableBank_inserted]
  refine ⟨fun pattern => ⟨ppuRead_pattern c gray p pattern, ppuRead_pattern_none gray p pattern,
    ppuWrite_pattern c p d pattern⟩, ppuRead_nametable c gray p, ppuRead_palette c gray p, ?_⟩
  obtain low | ⟨low, high⟩ | low := ppuAddress_ranges a
  · have notNametable : ¬0x2000 ≤ a.toNat % 0x4000 := by omega
    have notPalette : ¬0x3F00 ≤ a.toNat % 0x4000 := by omega
    simp only [ppuRead_ppuWrite_pattern c gray p d low, low, notNametable, notPalette, true_and, false_and, if_false]
  · have notPattern : ¬a.toNat % 0x4000 ≤ 0x1FFF := by omega
    have notPalette : ¬0x3F00 ≤ a.toNat % 0x4000 := by omega
    simp only [ppuRead_ppuWrite_nametable c gray p d low high, low, high, notPattern, notPalette, true_and, false_and,
      if_false]
  · have notPattern : ¬a.toNat % 0x4000 ≤ 0x1FFF := by omega
    have notNametable : ¬a.toNat % 0x4000 ≤ 0x3EFF := by omega
    simp only [ppuRead_ppuWrite_palette c gray p d low, low, notPattern, notNametable, true_and, and_false, false_and,
      if_false]
    rfl

end Sys2Proof.Machine
end

section
/-! SUPPORT. The frames of the instructions that read, store and modify an operand (R170): what is outside the CPU by the frames
of their shapes, the CPU by who may write what (`exec_writtenBy`). -/

namespace Sys2Proof.Machine

/-- Outside the CPU a reading instruction changes only what its reads change (R89). -/
theorem exec_reads_frame {i : Instr} {s t : State} (reads : i.row.mnemonic ∈ readers) (ht : exec i s = .next t) :
    sameButReads s t := by
  rw [exec_reads reads] at ht
  cases ht
  exact sameButReads_withCpu (fetchOperand_frame _ s) _

/-- An instruction that reads or modifies an operand writes neither SP nor PC, and I, D, B and U of P it leaves alone. -/
theorem WrittenBy.operandOperation {m : Mnemonic} {c d : Cpu} (h : WrittenBy m c d) (hm : m ∈ readers ++ modifiers) :
    let f := statusBits c.p
    let g := statusBits d.p
    d.sp = c.sp ∧ d.pc = c.pc ∧ g.i = f.i ∧ g.d = f.d ∧ g.b = f.b ∧ g.u = f.u := by
  have apart (l : List Mnemonic) (h : ∀ m ∈ readers ++ modifiers, m ∉ l) : m ∉ l := h m hm
  obtain ⟨-, -, -, sp, pc, -, -, i, d, -, bu⟩ := h
  exact ⟨sp (apart _ (by decide)), pc (apart _ (by decide)), i (apart _ (by decide)), d (apart _ (by decide)),
    bu (apart _ (by decide))⟩

/-- Settles O25: the frame of the reads, and of the CPU what O29 lets a reading instruction write. -/
theorem readingInstructionsFrame : Obligations.ReadingInstructionsFrame := by
  intro i s t reads ht
  have frame := exec_reads_frame reads ht
  have written := exec_writtenBy ht
  generalize i.row.mnemonic = m at reads written ⊢
  obtain ⟨sp, pc, i, d, b, u⟩ := written.operandOperation (List.mem_append_left _ reads)
  obtain ⟨a, x, y, -, -, c, -, -, -, v, -⟩ := written
  -- a reading instruction that the claim's list does not name is not on O29's list `l` of writers either
  have unnamed (named l : List Mnemonic) (h : ∀ m ∈ readers, m ∉ named → m ∉ l) : m ∉ named → m ∉ l := h m reads
  exact ⟨byteAt_of_sameButReads frame, frame, sp, pc,
    fun h => a (unnamed _ _ (by decide) h),
    fun h => x (unnamed [.ldx] _ (by decide) (fun e => h (List.mem_singleton.mp e))),
    fun h => y (unnamed [.ldy] _ (by decide) (fun e => h (List.mem_singleton.mp e))),
    i, d, b, u, fun h => c (unnamed _ _ (by decide) h), fun h => v (unnamed _ _ (by decide) h)⟩

/-- The byte a storing instruction stores, in the words of the claim. -/
theorem storeValue_eq {m : Mnemonic} (h : m ∈ storers) (c : Cpu) :
    storeValue m c = if m = .sta then c.a else if m = .stx then c.x else c.y := by
  simp only [List.mem_cons, List.not_mem_nil, or_false] at h
  rcases h with rfl | rfl | rfl <;> rfl

/-- Settles O26: a store is reads and then one write. -/
theorem storingInstructionsFrame : Obligations.StoringInstructionsFrame := by
  intro i s t stores ht
  rw [exec_stores stores] at ht
  obtain ⟨others, place, cpu, frame⟩ := write_frame (resolve_frame _ s) ht
  exact ⟨others, fun l hl => (place l hl).trans (storeValue_eq stores s.cpu), by rw [cpu], frame⟩

/-- Settles O27: the frame of the shape, and of the CPU what O29 lets a read-modify-write instruction write. -/
theorem modifyingInstructionsFrame : Obligations.ModifyingInstructionsFrame := by
  intro i s t modifies ht
  have written := exec_writtenBy ht
  rw [exec_modifies modifies] at ht
  obtain ⟨memory, accumulator, -⟩ := modifyInstr_frame ht
  generalize i.row.mnemonic = m at modifies written ⊢
  obtain ⟨sp, pc, i, d, b, u⟩ := written.operandOperation (List.mem_append_right _ modifies)
  obtain ⟨-, x, y, -, -, c, -, -, -, v, -⟩ := written
  have apart (l : List Mnemonic) (h : ∀ m ∈ modifiers, m ∉ l) : m ∉ l := h m modifies
  have incDec (l : List Mnemonic) (h : ∀ m ∈ ([.inc, .dec] : List Mnemonic), m ∉ l) := h m
  exact ⟨memory, accumulator, x (apart _ (by decide)), y (apart _ (by decide)), sp, pc, i, d, b, u,
    v (apart _ (by decide)), fun h => c (incDec _ (by decide) h)⟩

end Sys2Proof.Machine
end

section
/-! SUPPORT. Which host calls a step takes (R82, R442, R465), and the peek (R99, R313). -/

namespace Sys2Proof.Machine

/-- An allowed call goes on (R442): only a malformed cartridge would be refused. -/
theorem makeCall_next {c : HostCall} {s : State} (allowed : callAllowed c s = true) (u : State) :
    ∃ t, makeCall c u = .next t := by
  cases c with
  | busTick => exact busTick_next u
  | cpuTick => exact cpuTick_next u
  | insertCartridge cart =>
    have wf : cart.wf = true := by simpa [callAllowed, needsCartridge] using allowed
    exact ⟨_, if_pos wf⟩
  | cpuRead a isPeek => cases isPeek <;> exact ⟨_, rfl⟩
  | ppuRead port isPeek => cases isPeek <;> exact ⟨_, rfl⟩
  | _ => exact ⟨_, rfl⟩

/-- An allowed call has the cartridge it needs. -/
theorem cartridge_of_callAllowed {c : HostCall} {s : State} (allowed : callAllowed c s = true) :
    (needsCartridge c && s.cart.isNone) = false := by
  simpa only [Bool.not_eq_true'] using (Bool.and_eq_true_iff.mp allowed).1

/-- Settles O38: a step that goes on made an allowed call, and an allowed call goes on. -/
theorem stepGoesOnWhenAllowed : Obligations.StepGoesOnWhenAllowed := by
  intro s
  constructor
  · rintro ⟨t, ht⟩
    obtain ⟨c, rest, waiting | ⟨idle, rfl, -⟩, allowed, -⟩ := step_cases ht
    · simpa only [goesOn, waiting] using allowed
    · simpa only [goesOn, idle] using allowed
  · intro allowed
    unfold goesOn at allowed
    split at allowed
    next idle =>
      have inserted : s.cart.isSome = true := by simpa [needsCartridge] using cartridge_of_callAllowed allowed
      rw [step_busTick idle inserted]
      exact busTick_next s
    next c rest waiting =>
      rw [step_call waiting (cartridge_of_callAllowed allowed)]
      exact makeCall_next allowed _

/-- Without a cartridge a Bus tick is refused (R82). -/
theorem hostCall_busTick_refused {s : State} (empty : s.cart = none) : hostCall .busTick s = .refused .noCartridge := by
  simp [hostCall, needsCartridge, empty]

/-- Settles O39: the two ways to a Bus tick, and the unmapped range, where the reset vector lies. -/
theorem noCartridgeIsRefused : Obligations.NoCartridgeIsRefused := by
  intro s empty
  have unmapped {a : Addr} (h : 0x4020 ≤ a.toNat) : cpuRead s a = (0, s) :=
    cpuRead_unmapped s (by omega) (by rintro rfl; simp at h) (by rintro rfl; simp at h) (.inr empty)
  refine ⟨fun idle => ?_, fun rest waiting => ?_, fun a d h => ⟨unmapped h, cpuWrite_above s d (by omega)⟩, ?_⟩
  · simp only [step, nextCall, idle]
    exact hostCall_busTick_refused empty
  · simp only [step, nextCall, waiting]
    exact hostCall_busTick_refused empty
  · rw [memRead2_above s (by decide) (by decide), unmapped (by decide), unmapped (by decide)]
    show word 0 0 = 0
    decide

/-- Settles O40: both peeks have the effect of `peek`. -/
theorem peekChangesNothing : Obligations.PeekChangesNothing := by
  intro s rest c peeks
  refine ⟨.byte (Config.freeByte s.ppu.freeCount), s.ppu.freeCount + 1, ?_⟩
  rcases peeks with ⟨a, rfl⟩ | ⟨port, rfl⟩ <;> exact (step_call rfl rfl).trans rfl

end Sys2Proof.Machine
end

section
/-! SUPPORT. The decoder is the inverse of the encoder (R120 to R122, R124, R128). -/

namespace Sys2Proof

/-- A cell of the opcode map completes operand bytes to an instruction; the bytes of a word come low byte first (R122). -/
inductive Shape.Completes : Shape → List Byte → Instr → Prop
  | len1 (i : Instr) : Completes (.len1 i) [] i
  | len2 (f : Byte → Instr) (b : Byte) : Completes (.len2 f) [b] (f b)
  | len3 (f : Addr → Instr) (w : Addr) : Completes (.len3 f) [loByte w, hiByte w] (f w)

/-- The two tables agree from the encoder's side, row by row: the cell at an instruction's opcode completes its operand bytes to
the instruction itself (R124). -/
theorem opcodeShape_completes (i : Instr) : (opcodeShape i.row.opcode).Completes i.row.operand.bytes i := by
  cases i <;> dsimp only [Instr.row, Operand.bytes] <;> constructor

/-- The decoder takes the operand bytes that the cell completes, and no more. -/
theorem decode_of_completes {op : Byte} {operand : List Byte} {i : Instr} (h : (opcodeShape op).Completes operand i)
    (rest : List Byte) : decode (op :: (operand ++ rest)) = some (i, rest) := by
  simp only [decode]
  generalize opcodeShape op = cell at h
  cases h with
  | len1 => rfl
  | len2 => rfl
  | len3 f w => exact congrArg (fun a => some (f a, rest)) (word_bytes w)

/-- Decoding undoes encoding, whatever bytes come after. -/
theorem decode_encode_append (i : Instr) (rest : List Byte) : decode (encode i ++ rest) = some (i, rest) :=
  decode_of_completes (opcodeShape_completes i) rest

/-- Encoding undoes decoding. -/
theorem encode_append_of_decode {bytes rest : List Byte} {i : Instr} (h : decode bytes = some (i, rest)) :
    encode i ++ rest = bytes := by
  cases bytes with
  | nil => cases h
  | cons op tail =>
    have agrees := opcodeShape_agrees op
    simp only [decode] at h
    generalize opcodeShape op = cell at h agrees
    match cell, tail with
    | .len1 _, _ => cases h; rw [agrees]; rfl
    | .len2 _, _ :: _ => cases h; rw [agrees]; rfl
    | .len3 _, _ :: _ :: _ => cases h; rw [agrees, loByte_word, hiByte_word]; rfl

/-- The decoder reads an instruction exactly where the bytes begin with its encoding. -/
theorem decode_eq_some_iff {bytes rest : List Byte} {i : Instr} :
    decode bytes = some (i, rest) ↔ encode i ++ rest = bytes :=
  ⟨encode_append_of_decode, fun h => h ▸ decode_encode_append i rest⟩

/-- Three bytes are enough for every instruction, and no opcode is refused (R128). -/
theorem decode_isSome (op b1 b2 : Byte) (more : List Byte) : (decode (op :: b1 :: b2 :: more)).isSome = true := by
  simp only [decode]
  cases opcodeShape op <;> rfl

/-- Settles O1: the opcode map holds every row of the encoder's table. -/
theorem decodeInvertsEncode : Obligations.DecodeInvertsEncode :=
  fun i rest _ => decode_encode_append i rest

/-- Settles O2: the decoder answers, its answer encodes back, and what it answers for an encoding is the instruction encoded. -/
theorem everyByteSequenceDecodes : Obligations.EveryByteSequenceDecodes := by
  intro op b1 b2 more
  obtain ⟨⟨i, rest⟩, decoded⟩ := Option.isSome_iff_exists.mp (decode_isSome op b1 b2 more)
  refine ⟨i, rest, decoded, encode_append_of_decode decoded, fun j rest' encoded => ?_⟩
  have same : some (j, rest') = some (i, rest) := (decode_eq_some_iff.mpr encoded).symm.trans decoded
  cases same
  rfl

/-- Settles O3: each word is the encoding of its instruction, then the bytes left. -/
theorem exampleWordsDecode : Obligations.ExampleWordsDecode := by
  simp only [Obligations.ExampleWordsDecode, decode_eq_some_iff]
  decide

end Sys2Proof
end

section
/-! SUPPORT. The step that runs an instruction (R150, R151, R400). -/

namespace Sys2Proof.Machine

/-- With no cycles left, a CPU tick runs the instruction it fetches and counts off one of its cycles (R150). -/
theorem cpuTick_of_fetch {s code u : State} {i : Instr} (idle : s.cpu.cycles = 0) (fetched : fetch s = (i, code))
    (ran : exec i code = .next u) : cpuTick s = .next (countDown u) := by
  simp only [cpuTick, idle, if_true, fetched, ran]
  rfl

/-- A CPU slot with no DMA transfer is a CPU tick (R400). -/
theorem cpuSlot_of_noTransfer {s : State} (slot : s.bus.clock % 3 = 0) (free : s.bus.dmaTransfer = false) :
    cpuSlot s = cpuTick s := by
  simp [cpuSlot, slot, free]

/-- Settles O36: the PPU tick before the slot leaves the clock, the DMA and the cycle counter alone, the fetch decodes the bytes
at PC, and the instruction always goes on. -/
theorem stepRunsTheDecodedInstruction : Obligations.StepRunsTheDecodedInstruction := by
  intro s code n bytes i noCall inserted slot free idle read decoded
  obtain ⟨u, ran⟩ := exec_next i code
  have tick : cpuSlot (ppuTick s) = .next (countDown u) :=
    (cpuSlot_of_noTransfer (s := ppuTick s) slot free).trans (cpuTick_of_fetch idle (fetch_of_decode read decoded) ran)
  rw [step_busTick noCall inserted, busTick_of_slot tick, ran]
  rfl

end Sys2Proof.Machine
end

section
/-! SUPPORT. The addressing modes and the operand as numbers (R155 to R167). -/

namespace Sys2Proof.Machine

/-- An operand plus an index register, inside page 0 (R158, R159, R165). -/
theorem word_zero_add (zp index : Byte) : word 0 (zp + index) = BitVec.ofNat 16 ((zp.toNat + index.toNat) % 256) := by
  rw [word_zero, BitVec.toNat_add]

/-- The next address inside page 0 (R165, R166). -/
theorem word_zero_succ (zp : Byte) : word 0 (zp + 1) = BitVec.ofNat 16 ((zp.toNat + 1) % 256) :=
  word_zero_add zp 1

/-- The next address inside the page of an address (R164). -/
theorem nextInPage_eq (a : Addr) :
    word (hiByte a) (loByte a + 1) = BitVec.ofNat 16 (a.toNat / 256 * 256 + (a.toNat + 1) % 256) := by
  have low : (loByte a + 1).toNat = (a.toNat + 1) % 256 := by
    rw [BitVec.toNat_add, loByte_toNat]
    exact Nat.mod_add_mod _ _ _
  rw [word_ofNat, hiByte_toNat, low, Nat.mul_comm]

/-- An indexed address wraps modulo 65536 (R162, R163). -/
theorem indexedAddress_eq (base : Addr) (index : Byte) :
    base + index.setWidth 16 = BitVec.ofNat 16 (base.toNat + index.toNat) := by
  apply BitVec.eq_of_toNat_eq
  simp

/-- An index crosses a page exactly when it carries out of the low byte of the base. -/
theorem hiByte_indexed_ne_iff (base : Addr) (index : Byte) :
    hiByte (base + index.setWidth 16) ≠ hiByte base ↔ 256 ≤ base.toNat % 256 + index.toNat := by
  have := base.isLt
  have := index.isLt
  rw [ne_eq, ← BitVec.toNat_inj, hiByte_toNat, hiByte_toNat, indexedAddress_eq, BitVec.toNat_ofNat]
  omega

/-- The indexed modes as numbers. -/
theorem resolveIndexed_eq (base : Addr) (index : Byte) (s : State) :
    resolveIndexed base index s =
      ⟨BitVec.ofNat 16 (base.toNat + index.toNat), decide (256 ≤ base.toNat % 256 + index.toNat), s⟩ := by
  simp only [resolveIndexed, hiByte_indexed_ne_iff]
  rw [indexedAddress_eq]

/-- The indexed modes on a base given by its two bytes, as IZY reads it (R166). -/
theorem resolveIndexed_word (hi lo index : Byte) (s : State) :
    resolveIndexed (word hi lo) index s =
      ⟨BitVec.ofNat 16 (256 * hi.toNat + lo.toNat + index.toNat), decide (256 ≤ lo.toNat + index.toNat), s⟩ := by
  have base : (word hi lo).toNat = 256 * hi.toNat + lo.toNat := by
    have := hi.isLt
    have := lo.isLt
    rw [word_ofNat, BitVec.toNat_ofNat]
    omega
  have low : (word hi lo).toNat % 256 = lo.toNat := by rw [← loByte_toNat, loByte_word]
  rw [resolveIndexed_eq, low, base]

/-- Settles O4, mode by mode: no mode reads, and the sums are those of page 0 and of the whole address space. -/
theorem directAndIndexedAddresses : Obligations.DirectAndIndexedAddresses := by
  intro b w s
  refine ⟨?zp0, ?zpx, ?zpy, rfl, resolveIndexed_eq w s.cpu.x s, resolveIndexed_eq w s.cpu.y s⟩
  case zp0 => simp only [resolve, word_zero]
  case zpx => simp only [resolve, word_zero_add]
  case zpy => simp only [resolve, word_zero_add]

/-- Settles O5, mode by mode: each makes its two pointer reads at these addresses and joins the bytes. -/
theorem indirectAddresses : Obligations.IndirectAddresses := by
  intro b w s
  refine ⟨?ind, ?izx, ?izy⟩
  case ind => simp only [resolve, resolveInd, nextInPage_eq, ← word_ofNat]
  case izx =>
    have next : BitVec.ofNat 16 ((b.toNat + s.cpu.x.toNat + 1) % 256) = word 0 (b + s.cpu.x + 1) := by
      rw [word_zero_succ, BitVec.toNat_add]
      congr 1
      omega
    simp only [resolve, resolveIzx, zeroPagePointer, next, ← word_zero_add, ← word_ofNat]
  case izy => simp only [resolve, resolveIzy, zeroPagePointer, resolveIndexed_word, ← word_zero, ← word_zero_succ]

/-- In every mode but ACC and IMM the operand is one read at the effective address (R167). -/
theorem fetchOperand_eq_read {o : Operand} (notAcc : o ≠ .acc) (notImm : ∀ v, o ≠ .imm v) (s : State) :
    fetchOperand o s =
      ⟨(cpuRead (resolve o s).st (resolve o s).ea).1, (resolve o s).crossed,
        (cpuRead (resolve o s).st (resolve o s).ea).2⟩ := by
  cases o with
  | acc => exact absurd rfl notAcc
  | imm v => exact absurd rfl (notImm v)
  | _ => rfl

/-- Settles O6: the modes listed are neither ACC nor IMM. -/
theorem operandIsOneRead : Obligations.OperandIsOneRead := by
  intro b w s
  refine ⟨rfl, rfl, fun o listed => fetchOperand_eq_read ?_ ?_ s⟩
  · rintro rfl
    simp at listed
  · rintro v rfl
    simp at listed

end Sys2Proof.Machine
end

section
/-! SUPPORT. The frame of the stack instructions (R171, R250, R251, R260 to R263, R277, R278): a push stores one byte of RAM at the
slot SP names, and a pull stores nothing. -/

namespace Sys2Proof.Machine

/-- The second state differs from the first at most in the CPU and in the bytes of `n` stack slots, from the one SP names down. -/
structure StackFrame (n : Nat) (s t : State) : Prop where
  bytes : ∀ l : Place, (∀ j < n, l ≠ .ram (0x100 + (s.cpu.sp - BitVec.ofNat 8 j).toNat)) → t.byteAt l = s.byteAt l
  outside : t = { s with cpu := t.cpu, bus := { s.bus with ram := t.bus.ram } }

/-- A change of the CPU alone writes no slot. -/
theorem stackFrame_cpu (s : State) (c : Cpu) : StackFrame 0 s { s with cpu := c } where
  bytes l _ := byteAt_withCpu s c l
  outside := rfl

/-- The frame says nothing of the CPU at the end. -/
theorem StackFrame.withCpu {n : Nat} {s t : State} (h : StackFrame n s t) (c : Cpu) : StackFrame n s { t with cpu := c } where
  bytes l hl := (byteAt_withCpu t c l).trans (h.bytes l hl)
  outside := congrArg (fun u : State => { u with cpu := c }) h.outside

/-- A push stores at the slot SP names only. -/
theorem push_byteAt (v : Byte) (s : State) {l : Place} (h : l ≠ .ram (0x100 + s.cpu.sp.toNat)) :
    (push v s).byteAt l = s.byteAt l := by
  rw [push_eq]
  cases l with
  | ram k => exact Memory.read_write_other _ v fun e => h (congrArg Place.ram e)
  | _ => rfl

/-- After `n` pushes, one more writes the next slot down. -/
theorem StackFrame.push {n : Nat} {s t : State} (h : StackFrame n s t) (sp : t.cpu.sp = s.cpu.sp - BitVec.ofNat 8 n)
    (v : Byte) : StackFrame (n + 1) s (push v t) where
  bytes l hl := by
    have slot : l ≠ .ram (0x100 + t.cpu.sp.toNat) := sp ▸ hl n (Nat.lt_succ_self n)
    exact (push_byteAt v t slot).trans (h.bytes l fun j hj => hl j (Nat.lt_succ_of_lt hj))
  outside := by rw [push_eq, h.outside]

/-- A change of PC before the pushes does not move the slots. -/
theorem StackFrame.of_setPc {n : Nat} {s t : State} {pc : Addr} (h : StackFrame n (s.setPc pc) t) : StackFrame n s t where
  bytes l hl := (h.bytes l hl).trans (byteAt_withCpu s _ l)
  outside := h.outside

/-- An entry writes three slots (R444): the vector's reads change nothing (R441). -/
theorem enter_stackFrame {vector : Addr} (b : Bool) (s : State) (high : 0x4018 ≤ vector.toNat)
    (high' : 0x4018 ≤ (vector + 1).toNat) : StackFrame 3 s (enter vector b s) := by
  have pushes (v₁ v₂ v₃ : Byte) : StackFrame 3 s (push v₃ (push v₂ (push v₁ s))) :=
    (((stackFrame_cpu s s.cpu).push (by simp) v₁).push (by simp) v₂).push (by simp [BitVec.sub_sub]) v₃
  simp only [enter, memRead2_above _ high high']
  exact ((pushes _ _ _).withCpu _).withCpu _

/-- Each stack instruction with the number of slots it writes. -/
abbrev stackSlots : List (Mnemonic × Nat) :=
  [(.pha, 1), (.php, 1), (.jsr, 2), (.brk, 3), (.pla, 0), (.plp, 0), (.rts, 0), (.rti, 0)]

/-- What each stack instruction leaves alone outside the CPU. -/
theorem exec_stackFrame {i : Instr} {s t : State} {n : Nat} (h : (i.row.mnemonic, n) ∈ stackSlots)
    (ht : exec i s = .next t) : StackFrame n s t := by
  have one (v : Byte) : StackFrame 1 s (push v s) := (stackFrame_cpu s s.cpu).push (by simp) v
  rw [exec_eq_meaning] at ht
  generalize i.row = r at h ht
  obtain ⟨op, m, o, base⟩ := r
  simp only [List.mem_cons, Prod.mk.injEq, List.not_mem_nil, or_false] at h
  rcases h with ⟨rfl, rfl⟩ | ⟨rfl, rfl⟩ | ⟨rfl, rfl⟩ | ⟨rfl, rfl⟩ | ⟨rfl, rfl⟩ | ⟨rfl, rfl⟩ | ⟨rfl, rfl⟩ | ⟨rfl, rfl⟩
  · cases ht; exact (one _).withCpu _
  · cases ht; exact (one _).withCpu _
  · cases ht; exact ((one _).push (by simp) _).withCpu _
  · cases ht; exact (enter_stackFrame true _ (by decide) (by decide)).of_setPc.withCpu _
  · cases ht; rw [pullA, pull_eq]; exact stackFrame_cpu s _
  · cases ht; rw [pullP, pull_eq]; exact stackFrame_cpu s _
  · cases ht; rw [returnFromSubroutine_eq]; exact stackFrame_cpu s _
  · cases ht; rw [returnFromInterrupt_eq]; exact stackFrame_cpu s _

/-- Settles O28: outside the CPU the frame, and of the CPU what O29 lets a stack instruction write. -/
theorem stackInstructionsFrame : Obligations.StackInstructionsFrame := by
  intro i s t n h ht
  obtain ⟨bytes, outside⟩ := exec_stackFrame h ht
  obtain ⟨a, x, y, -⟩ := exec_writtenBy ht
  generalize i.row.mnemonic = m at h a x y ⊢
  have stack : m ∈ stackSlots.map Prod.fst := List.mem_map_of_mem h
  have apart (l : List Mnemonic) (h : ∀ m ∈ stackSlots.map Prod.fst, m ∉ l) : m ∉ l := h m stack
  have onlyPla (l : List Mnemonic) (h : ∀ m ∈ stackSlots.map Prod.fst, m ≠ .pla → m ∉ l) : m ≠ .pla → m ∉ l := h m stack
  exact ⟨bytes, outside, x (apart _ (by decide)), y (apart _ (by decide)), fun h => a (onlyPla _ (by decide) h)⟩

end Sys2Proof.Machine
end

section
/-! SUPPORT. The CPU ticks of one instruction (R150). -/

namespace Sys2Proof.Machine

/-- CPU ticks in a row, no more than the cycles that remain, only count down. -/
theorem cpuTicks_countDown (k : Nat) {s : State} (h : k ≤ s.cpu.cycles) :
    cpuTicks k s = .next { s with cpu := { s.cpu with cycles := s.cpu.cycles - k } } := by
  induction k generalizing s with
  | zero => rfl
  | succ k ih =>
    rw [cpuTicks, cpuTick_countDown (by omega), andThen, ih (by dsimp only; omega), Nat.sub_sub, Nat.add_comm 1 k]

/-- Settles O35: the first tick runs the instruction and counts off one cycle (R150), the others count down. -/
theorem instructionOccupiesItsCount : Obligations.InstructionOccupiesItsCount := by
  intro s t idle ran
  obtain ⟨least, most⟩ := exec_count ran
  refine ⟨least, most, fun k hk => ?_⟩
  have remaining : k ≤ (countDown t).cpu.cycles := Nat.le_sub_one_of_lt hk
  calc cpuTicks (k + 1) s
    _ = cpuTicks k (countDown t) := by rw [cpuTicks, cpuTick_of_fetch idle rfl ran, andThen]
    _ = .next { t with cpu := { t.cpu with cycles := t.cpu.cycles - 1 - k } } := cpuTicks_countDown k remaining
    _ = .next { t with cpu := { t.cpu with cycles := t.cpu.cycles - (k + 1) } } := by rw [Nat.sub_sub, Nat.add_comm 1 k]

end Sys2Proof.Machine
end

section
/-! SUPPORT. A form is a row of the opcode table (R124): what each group of instructions answers, in the words of the forms; and the
loads, stores and transfers (R180 to R191). -/

namespace Sys2Proof.Machine

/-- The row of the opcode table that a form states for its instruction, at the mnemonic `m` (R124). -/
abbrev Form.stated (m : Mnemonic) (f : Form) : Row := ⟨f.opcode, m, f.operand, f.base⟩

/-- The form states its instruction's row of the opcode table, and the row's mnemonic is `m` (R124). -/
def Form.HasRow (m : Mnemonic) (f : Form) : Prop := f.instr.row = f.stated m

/-- Forms have their rows when the two lists of rows are the same. -/
theorem hasRow_of_map_eq {m : Mnemonic} {l : List Form} (rows : l.map (·.instr.row) = l.map (Form.stated m)) :
    ∀ f ∈ l, f.HasRow m :=
  List.map_inj_left.mp rows

/-- The mnemonics of the instructions that change registers only. -/
abbrev setters : List Mnemonic :=
  [.tax, .tay, .txa, .tya, .tsx, .txs, .inx, .iny, .dex, .dey, .clc, .sec, .cli, .sei, .clv, .cld, .sed, .nop]

/-- What an instruction that changes registers only answers. -/
theorem exec_sets {i : Instr} (h : i.row.mnemonic ∈ setters) (s : State) :
    exec i s = .next { s with cpu := { setEffect i.row.mnemonic s.cpu with cycles := i.row.base } } := by
  rw [exec_eq_meaning]
  generalize i.row = r at h
  obtain ⟨op, m, o, base⟩ := r
  simp only [List.mem_cons, List.not_mem_nil, or_false] at h
  rcases h with rfl | rfl | rfl | rfl | rfl | rfl | rfl | rfl | rfl | rfl | rfl | rfl | rfl | rfl | rfl | rfl | rfl | rfl <;>
    rfl

section row
variable {m : Mnemonic} {f : Form} (row : f.HasRow m)
include row

theorem Form.HasRow.mnemonic : f.instr.row.mnemonic = m := congrArg Row.mnemonic row

theorem Form.HasRow.encoded : f.encoded := by rw [Form.encoded, encode, row]

theorem Form.HasRow.reads (reader : m ∈ readers) : f.reads (readEffect m) :=
  ⟨row.encoded, fun s => by rw [exec_reads (row.mnemonic ▸ reader), row]⟩

theorem Form.HasRow.stores (storer : m ∈ storers) : f.stores (storeValue m) :=
  ⟨row.encoded, fun s => by rw [exec_stores (row.mnemonic ▸ storer), row]⟩

theorem Form.HasRow.sets (setter : m ∈ setters) : f.sets (setEffect m) :=
  ⟨row.encoded, fun s => by rw [exec_sets (row.mnemonic ▸ setter), row]⟩

end row

/-- Forms of one reading mnemonic. -/
theorem reads_of_rows {m : Mnemonic} {l : List Form} (reader : m ∈ readers)
    (rows : l.map (·.instr.row) = l.map (Form.stated m)) : ∀ f ∈ l, f.reads (readEffect m) :=
  fun f listed => (hasRow_of_map_eq rows f listed).reads reader

/-- Forms of one storing mnemonic. -/
theorem stores_of_rows {m : Mnemonic} {l : List Form} (storer : m ∈ storers)
    (rows : l.map (·.instr.row) = l.map (Form.stated m)) : ∀ f ∈ l, f.stores (storeValue m) :=
  fun f listed => (hasRow_of_map_eq rows f listed).stores storer

/-- Settles O7: each listed form is a row of its mnemonic, and a load is a reading instruction. -/
theorem loadsSetRegisterAndFlags : Obligations.LoadsSetRegisterAndFlags := by
  intro b w
  refine ⟨?lda, ?ldx, ?ldy⟩
  case lda => exact reads_of_rows (m := .lda) (by decide) rfl
  case ldx => exact reads_of_rows (m := .ldx) (by decide) rfl
  case ldy => exact reads_of_rows (m := .ldy) (by decide) rfl

/-- Settles O8: each listed form is a row of its mnemonic, and a store writes its register once. -/
theorem storesWriteTheRegister : Obligations.StoresWriteTheRegister := by
  intro b w
  refine ⟨?sta, ?stx, ?sty⟩
  case sta => exact stores_of_rows (m := .sta) (by decide) rfl
  case stx => exact stores_of_rows (m := .stx) (by decide) rfl
  case sty => exact stores_of_rows (m := .sty) (by decide) rfl

/-- Settles O9: each transfer is a row of its mnemonic, and changes registers only. -/
theorem transfersCopyRegisters : Obligations.TransfersCopyRegisters := by
  refine ⟨?tax, ?tay, ?txa, ?tya, ?tsx, ?txs⟩
  case tax => exact Form.HasRow.sets (m := .tax) rfl (by decide)
  case tay => exact Form.HasRow.sets (m := .tay) rfl (by decide)
  case txa => exact Form.HasRow.sets (m := .txa) rfl (by decide)
  case tya => exact Form.HasRow.sets (m := .tya) rfl (by decide)
  case tsx => exact Form.HasRow.sets (m := .tsx) rfl (by decide)
  case txs => exact Form.HasRow.sets (m := .txs) rfl (by decide)

end Sys2Proof.Machine
end

section
/-! SUPPORT. The adder in the words of R200 and R201: result, carry and signed overflow as numbers, with the operand of ADC and with
the complemented operand of SBC (R203, R204). -/

namespace Sys2Proof.Machine

/-- The overflow formula of R201 on the sign bits: equal in the inputs, another in the result. -/
theorem addBytes_overflow_iff_msb (a m : Byte) (c : Bool) :
    (addBytes a m c).overflow = true ↔ a.msb = m.msb ∧ (addBytes a m c).result.msb ≠ a.msb := by
  have bit7 (x : Byte) : x &&& 0x80 ≠ 0 ↔ x.msb = true := by
    rw [show (0x80 : Byte) = BitVec.twoPow 8 7 from rfl, BitVec.and_twoPow, BitVec.msb_eq_getLsbD_last]
    cases x.getLsbD 7 <;> simp
  simp only [addBytes, bit7, decide_eq_true_eq, BitVec.msb_and, BitVec.msb_not, BitVec.msb_xor]
  cases a.msb <;> cases m.msb <;> simp

/-- The overflow formula of R201 says that the signed sum does not fit a byte (R200). -/
theorem addBytes_overflow_iff_signed (a m : Byte) (c : Bool) :
    (addBytes a m c).overflow = true ↔
      a.toInt + m.toInt + c.toNat < -128 ∨ 127 < a.toInt + m.toInt + c.toNat := by
  have := a.isLt
  have := m.isLt
  have := c.toNat_le
  have sum : (addBytes a m c).result.toNat = (a.toNat + m.toNat + c.toNat) % 256 := BitVec.toNat_ofNat _ 8
  simp only [addBytes_overflow_iff_msb, BitVec.msb_eq_decide, ne_eq, decide_eq_decide, BitVec.toInt_eq_toNat_cond, sum]
  omega

/-- The adder by its meaning: the sum modulo 256, the carry out of a byte, and the overflow of the signed sum. -/
theorem addBytes_eq (a m : Byte) (c : Bool) :
    addBytes a m c =
      { result := BitVec.ofNat 8 (a.toNat + m.toNat + c.toNat)
        carry := decide (255 < a.toNat + m.toNat + c.toNat)
        overflow := decide (a.toInt + m.toInt + c.toNat < -128 ∨ 127 < a.toInt + m.toInt + c.toNat) } := by
  simp only [← addBytes_overflow_iff_signed, Bool.decide_eq_true]
  rfl

theorem complement_toNat (m : Byte) : (m ^^^ 0xFF).toNat = 255 - m.toNat := by
  rw [show (0xFF : Byte) = BitVec.allOnes 8 from rfl, BitVec.xor_allOnes, BitVec.toNat_not]

theorem complement_toInt (m : Byte) : (m ^^^ 0xFF).toInt = -m.toInt - 1 := by
  have := m.isLt
  simp only [BitVec.toInt_eq_toNat_cond, complement_toNat]
  omega

/-- The adder on the complemented operand subtracts the operand and the borrow, which is the complement of the carry (R204). -/
theorem addBytes_complement (a m : Byte) (c : Bool) :
    let borrow := 1 - c.toNat
    addBytes a (m ^^^ 0xFF) c =
      { result := BitVec.ofInt 8 ((a.toNat : Int) - m.toNat - borrow)
        carry := decide (m.toNat + borrow ≤ a.toNat)
        overflow := decide (a.toInt - m.toInt - borrow < -128 ∨ 127 < a.toInt - m.toInt - borrow) } := by
  intro borrow
  have := m.isLt
  have := c.toNat_le
  have result : BitVec.ofNat 8 (a.toNat + (255 - m.toNat) + c.toNat) =
      BitVec.ofInt 8 ((a.toNat : Int) - m.toNat - borrow) := by
    apply BitVec.eq_of_toNat_eq
    rw [BitVec.toNat_ofNat, BitVec.toNat_ofInt]
    omega
  have noBorrow : 255 < a.toNat + (255 - m.toNat) + c.toNat ↔ m.toNat + borrow ≤ a.toNat := by omega
  have signed : a.toInt + (-m.toInt - 1) + c.toNat = a.toInt - m.toInt - borrow := by omega
  simp only [addBytes_eq, complement_toNat, complement_toInt, result, noBorrow, signed]

/-- Forms of one reading mnemonic, whose effect a claim states in other words. -/
theorem reads_of_effect {m : Mnemonic} {l : List Form} {g : Byte → Cpu → Cpu} (reader : m ∈ readers)
    (rows : l.map (·.instr.row) = l.map (Form.stated m)) (effect : ∀ v c, readEffect m v c = g v c) :
    ∀ f ∈ l, f.reads g := by
  have same : readEffect m = g := funext fun v => funext fun c => effect v c
  rw [← same]
  exact reads_of_rows reader rows

/-- Settles O10: ADC and SBC give A and P from the adder, on the operand and on its complement. -/
theorem addAndSubtractWithCarry : Obligations.AddAndSubtractWithCarry := by
  intro b w
  refine ⟨?adc, ?sbc, ?adder⟩
  case adc => exact reads_of_effect (m := .adc) (by decide) rfl fun v c => by simp only [readEffect, addBytes_eq]
  case sbc => exact reads_of_effect (m := .sbc) (by decide) rfl fun v c => by simp only [readEffect, addBytes_complement]
  case adder => exact fun a m c => ⟨BitVec.toNat_ofNat _ 8, decide_eq_true_iff, addBytes_overflow_iff_msb a m c⟩

end Sys2Proof.Machine
end

section
/-! SUPPORT. Compares, BIT, the logic operations, and the increments and decrements (R205 to R217). -/

namespace Sys2Proof.Machine

/-- Settles O11: each compare and BIT is a row of its mnemonic, and a reading instruction. -/
theorem comparesAndBitTest : Obligations.ComparesAndBitTest := by
  intro b w
  refine ⟨?cmp, ?cpx, ?cpy, ?bit⟩
  case cmp => exact reads_of_rows (m := .cmp) (by decide) rfl
  case cpx => exact reads_of_rows (m := .cpx) (by decide) rfl
  case cpy => exact reads_of_rows (m := .cpy) (by decide) rfl
  case bit => exact reads_of_rows (m := .bit) (by decide) rfl

/-- Settles O12: each form is a row of its mnemonic, and a reading instruction. -/
theorem logicOperations : Obligations.LogicOperations := by
  intro b w
  refine ⟨?and, ?ora, ?eor⟩
  case and => exact reads_of_rows (m := .and) (by decide) rfl
  case ora => exact reads_of_rows (m := .ora) (by decide) rfl
  case eor => exact reads_of_rows (m := .eor) (by decide) rfl

/-- Forms of one read-modify-write mnemonic on memory, with the result by the carry and the new P by the status bits. -/
theorem modifies_of_rows {m : Mnemonic} {l : List Form} {result : Byte → Bool → Byte} {bits : Byte → StatusBits → StatusBits}
    (modifier : m ∈ modifiers) (rows : l.map (·.instr.row) = l.map (Form.stated m)) (memory : ∀ f ∈ l, f.operand ≠ .acc)
    (results : ∀ v p, modifyResult m v p = result v (statusBits p).c)
    (flags : ∀ v p, modifyFlags m v p = (bits v (statusBits p)).byte) : ∀ f ∈ l, f.modifies result bits := by
  intro f listed
  have row := hasRow_of_map_eq rows f listed
  refine ⟨row.encoded, fun s => ?_⟩
  rw [exec_modifies (row.mnemonic ▸ modifier), row, modifyInstr_eq _ _ _ (memory f listed)]
  simp only [results, flags]

/-- Settles O13: each form is a row of its mnemonic on memory, and INC and DEC set Z and N from the result. -/
theorem incrementAndDecrementMemory : Obligations.IncrementAndDecrementMemory := by
  intro b w
  refine ⟨?inc, ?dec⟩
  case inc =>
    exact modifies_of_rows (m := .inc) (by decide) rfl (by simp) (fun _ _ => rfl) fun v p => withZN_bits (v + 1) p
  case dec =>
    exact modifies_of_rows (m := .dec) (by decide) rfl (by simp) (fun _ _ => rfl) fun v p => withZN_bits (v - 1) p

/-- Settles O14: each is a row of its mnemonic, and changes registers only. -/
theorem incrementAndDecrementIndex : Obligations.IncrementAndDecrementIndex := by
  refine ⟨?inx, ?iny, ?dex, ?dey⟩
  case inx => exact Form.HasRow.sets (m := .inx) rfl (by decide)
  case iny => exact Form.HasRow.sets (m := .iny) rfl (by decide)
  case dex => exact Form.HasRow.sets (m := .dex) rfl (by decide)
  case dey => exact Form.HasRow.sets (m := .dey) rfl (by decide)

end Sys2Proof.Machine
end

section
/-! SUPPORT. The shifts and rotates in the words of R230 to R234: results as numbers, C the bit shifted out, on A and on memory. -/

namespace Sys2Proof.Machine

/-! ## Results as numbers -/

theorem aslResult_eq (m p : Byte) : aslResult m p = BitVec.ofNat 8 (2 * m.toNat) := by
  apply BitVec.eq_of_toNat_eq
  rw [aslResult, BitVec.toNat_shiftLeft, BitVec.toNat_ofNat, Nat.shiftLeft_eq, Nat.mul_comm, Nat.pow_one]

theorem lsrResult_eq (m p : Byte) : lsrResult m p = BitVec.ofNat 8 (m.toNat / 2) := by
  apply BitVec.eq_of_toNat_eq
  have := m.isLt
  rw [lsrResult, BitVec.toNat_ushiftRight, BitVec.toNat_ofNat, Nat.shiftRight_eq_div_pow]
  omega

/-- Bringing the carry in at bits that the shifted byte has clear adds it (R232, R233). -/
theorem or_carry_eq_add {r mask : Byte} (clear : r &&& mask = 0) (c : Bool) :
    (r ||| if c then mask else 0) = r + BitVec.ofNat 8 (mask.toNat * c.toNat) := by
  cases c with
  | false => simp
  | true => simp [BitVec.add_eq_or_of_and_eq_zero r mask clear]

/-- The rotate left is the left shift plus the old carry, since the shift clears bit 0. -/
theorem rolResult_eq (m p : Byte) : rolResult m p = BitVec.ofNat 8 (2 * m.toNat + (statusBits p).c.toNat) := by
  have bit0Clear : m <<< 1 &&& 0x01 = 0 := by
    rw [show (0x01 : Byte) = BitVec.twoPow 8 0 from rfl, BitVec.and_twoPow]
    simp
  calc rolResult m p
    _ = aslResult m p + BitVec.ofNat 8 (1 * (statusBits p).c.toNat) := or_carry_eq_add bit0Clear _
    _ = BitVec.ofNat 8 (2 * m.toNat + (statusBits p).c.toNat) := by rw [aslResult_eq, Nat.one_mul, BitVec.ofNat_add]

/-- The rotate right is the right shift plus 128 times the old carry, since the shift clears bit 7. -/
theorem rorResult_eq (m p : Byte) : rorResult m p = BitVec.ofNat 8 (m.toNat / 2 + 128 * (statusBits p).c.toNat) := by
  have bit7Clear : m >>> 1 &&& 0x80 = 0 := by
    rw [show (0x80 : Byte) = BitVec.twoPow 8 7 from rfl, BitVec.and_twoPow]
    simp
  calc rorResult m p
    _ = lsrResult m p + BitVec.ofNat 8 (128 * (statusBits p).c.toNat) := or_carry_eq_add bit7Clear _
    _ = BitVec.ofNat 8 (m.toNat / 2 + 128 * (statusBits p).c.toNat) := by
      rw [lsrResult_eq, BitVec.ofNat_add]

/-! ## One shape for the four mnemonics -/

/-- The status bits after a shift: Z and N from the result, C the bit shifted out. -/
def shiftBits (result : Byte → Bool → Byte) (out : Byte → Bool) (v : Byte) (f : StatusBits) : StatusBits :=
  { f.zn (result v f.c) with c := out v }

/-- The mnemonic shifts: `result` of the operand and the old carry is its result, `out` of the operand is the bit shifted out, and
P comes from the two. -/
structure Shifts (m : Mnemonic) (result : Byte → Bool → Byte) (out : Byte → Bool) : Prop where
  modifier : m ∈ modifiers
  result_eq (v p : Byte) : modifyResult m v p = result v (statusBits p).c
  flags_eq (v p : Byte) : modifyFlags m v p = shiftFlags (out v) (modifyResult m v p) p

theorem shifts_asl : Shifts .asl (fun m _ => BitVec.ofNat 8 (2 * m.toNat)) (·.getLsbD 7) :=
  ⟨by decide, aslResult_eq, fun _ _ => rfl⟩

theorem shifts_lsr : Shifts .lsr (fun m _ => BitVec.ofNat 8 (m.toNat / 2)) (·.getLsbD 0) :=
  ⟨by decide, lsrResult_eq, fun _ _ => rfl⟩

theorem shifts_rol : Shifts .rol (fun m c => BitVec.ofNat 8 (2 * m.toNat + c.toNat)) (·.getLsbD 7) :=
  ⟨by decide, rolResult_eq, fun _ _ => rfl⟩

theorem shifts_ror : Shifts .ror (fun m c => BitVec.ofNat 8 (m.toNat / 2 + 128 * c.toNat)) (·.getLsbD 0) :=
  ⟨by decide, rorResult_eq, fun _ _ => rfl⟩

section shift
variable {m : Mnemonic} {result : Byte → Bool → Byte} {out : Byte → Bool} (shift : Shifts m result out)
include shift

theorem Shifts.flags_bits (v p : Byte) :
    modifyFlags m v p = (shiftBits result out v (statusBits p)).byte := by
  rw [shift.flags_eq, shift.result_eq, shiftFlags_bits, shiftBits]

/-- A shift of A changes A and P only. -/
theorem Shifts.onA {f : Form} (row : f.HasRow m) (acc : f.operand = .acc) :
    f.sets fun c =>
      { c with a := result c.a (statusBits c.p).c, p := (shiftBits result out c.a (statusBits c.p)).byte } := by
  refine ⟨row.encoded, fun s => ?_⟩
  rw [exec_modifies (row.mnemonic ▸ shift.modifier), row]
  simp only [acc, modifyInstr_acc, shift.result_eq, shift.flags_bits]

/-- The forms of a shift on memory read and write back once. -/
theorem Shifts.onMemory {l : List Form} (rows : l.map (·.instr.row) = l.map (Form.stated m))
    (memory : ∀ f ∈ l, f.operand ≠ .acc) :
    ∀ f ∈ l, f.modifies result (shiftBits result out) :=
  modifies_of_rows shift.modifier rows memory shift.result_eq shift.flags_bits

end shift

/-- Settles O15: each form is a row of its mnemonic, on A or on memory, and the four mnemonics shift by their numbers. -/
theorem shiftsAndRotates : Obligations.ShiftsAndRotates := by
  intro b w
  refine ⟨?aslA, ?asl, ?lsrA, ?lsr, ?rolA, ?rol, ?rorA, ?ror⟩
  case aslA => exact shifts_asl.onA rfl rfl
  case asl => exact shifts_asl.onMemory rfl (by simp)
  case lsrA => exact shifts_lsr.onA rfl rfl
  case lsr => exact shifts_lsr.onMemory rfl (by simp)
  case rolA => exact shifts_rol.onA rfl rfl
  case rol => exact shifts_rol.onMemory rfl (by simp)
  case rorA => exact shifts_ror.onA rfl rfl
  case ror => exact shifts_ror.onMemory rfl (by simp)

end Sys2Proof.Machine
end

section
/-! SUPPORT. Branches and jumps: the condition of each branch as a status bit, and the target as a number (R241 to R249, R252). -/

namespace Sys2Proof.Machine

/-- The condition of each branch on the status bits (R242 to R249). -/
def branchCondition : Mnemonic → StatusBits → Bool
  | .bcc, f => !f.c
  | .bcs, f => f.c
  | .beq, f => f.z
  | .bne, f => !f.z
  | .bmi, f => f.n
  | .bpl, f => !f.n
  | .bvc, f => !f.v
  | _, f => f.v

/-- A branch is taken when the condition of its mnemonic holds. -/
theorem exec_branches_condition {i : Instr} (h : i.row.mnemonic ∈ branches) (s : State) :
    exec i s = branchInstr (branchCondition i.row.mnemonic (statusBits s.cpu.p)) (branchDisp i.row.operand) s := by
  rw [exec_eq_meaning]
  generalize i.row = r at h
  obtain ⟨op, m, o, base⟩ := r
  simp only [List.mem_cons, List.not_mem_nil, or_false] at h
  rcases h with rfl | rfl | rfl | rfl | rfl | rfl | rfl | rfl <;> rfl

/-- A form of a branch mnemonic branches on the condition of its mnemonic. -/
theorem Form.HasRow.branches {m : Mnemonic} {i : Instr} {opcode d : Byte} (row : Form.HasRow m ⟨i, opcode, .rel d, 2⟩)
    (branch : m ∈ Machine.branches) : Form.branches ⟨i, opcode, .rel d, 2⟩ d (branchCondition m) := by
  refine ⟨row.encoded, fun s => ?_⟩
  rw [exec_branches_condition (row.mnemonic ▸ branch), row, branchInstr_eq]
  rfl

/-- Settles O16: each form is a row of its mnemonic, and a branch on that mnemonic's condition. -/
theorem branchesFollowTheirCondition : Obligations.BranchesFollowTheirCondition := by
  intro d
  refine ⟨?bcc, ?bcs, ?beq, ?bne, ?bmi, ?bpl, ?bvc, ?bvs⟩
  case bcc => exact Form.HasRow.branches (m := .bcc) rfl (by decide)
  case bcs => exact Form.HasRow.branches (m := .bcs) rfl (by decide)
  case beq => exact Form.HasRow.branches (m := .beq) rfl (by decide)
  case bne => exact Form.HasRow.branches (m := .bne) rfl (by decide)
  case bmi => exact Form.HasRow.branches (m := .bmi) rfl (by decide)
  case bpl => exact Form.HasRow.branches (m := .bpl) rfl (by decide)
  case bvc => exact Form.HasRow.branches (m := .bvc) rfl (by decide)
  case bvs => exact Form.HasRow.branches (m := .bvs) rfl (by decide)

/-- What a jump answers: PC is the effective address of its mode (R252). -/
theorem jumpTo_eq (base : Nat) (o : Operand) (s : State) :
    jumpTo base o s = .next
      { (resolve o s).st with cpu := { s.cpu with pc := (resolve o s).ea, cycles := base } } := by
  simp only [jumpTo, finish, State.setPc, State.setCycles, resolve_cpu]

/-- Settles O17: the two modes of JMP give their effective addresses, the indirect one by the two pointer reads of O5. -/
theorem jumpsSetPc : Obligations.JumpsSetPc := by
  intro w s lo hi
  obtain ⟨ind, -, -⟩ := indirectAddresses 0 w s
  refine ⟨rfl, jumpTo_eq 3 (.abs w) s, rfl, ?_⟩
  rw [exec_eq_meaning, Instr.row, meaning, jumpTo_eq, ind]

end Sys2Proof.Machine
end

section
/-! SUPPORT. Call and return: the return address goes to two stack slots and comes back from them (R250, R251). -/

namespace Sys2Proof.Machine

/-- The call of a subroutine, in terms of RAM (R250). -/
theorem jumpToSubroutine_eq (target : Addr) (s : State) :
    jumpToSubroutine target s =
      (let ret := s.cpu.pc - 1
       let ram1 := s.bus.ram.write (0x100 + s.cpu.sp.toNat) (hiByte ret)
       .next { s with
         cpu := { s.cpu with pc := target, sp := s.cpu.sp - 2, cycles := 6 }
         bus := { s.bus with ram := ram1.write (0x100 + (s.cpu.sp - 1).toNat) (loByte ret) } }) := by
  have lowered : s.cpu.sp - 1 - 1 = s.cpu.sp - 2 := by rw [BitVec.sub_sub]; rfl
  simp only [jumpToSubroutine, finish, push_eq, State.setPc, State.setCycles, lowered]

theorem exec_jsr (target : Addr) (s : State) : exec (.jsr target) s = jumpToSubroutine target s := rfl

theorem exec_rts (s : State) : exec .rts s = finish 6 (returnFromSubroutine s) := rfl

/-- Settles O18: a call is two pushes and a jump, a return is two pulls and one added. -/
theorem callPushesAndReturnPulls : Obligations.CallPushesAndReturnPulls := by
  intro w s ret sp ram1 ram2
  refine ⟨rfl, ?jsr, rfl, ?rts⟩
  case jsr => rw [exec_jsr, jumpToSubroutine_eq]
  case rts => rw [exec_rts, returnFromSubroutine_eq, finish, State.setCycles]

/-- A word written to two different addresses, high byte first, is read back from them. -/
theorem word_read_write_write (m : Memory) {high low : Nat} (apart : high ≠ low) (a : Addr) :
    word (((m.write high (hiByte a)).write low (loByte a)).read high)
      (((m.write high (hiByte a)).write low (loByte a)).read low) = a := by
  rw [Memory.read_write_other _ _ apart, Memory.read_write_same, Memory.read_write_same, word_bytes]

/-- Settles O19: RTS reads the two slots JSR wrote, which differ also where SP wraps, and adds the one JSR took away. -/
theorem returnResumesAfterCall : Obligations.ReturnResumesAfterCall := by
  intro w s t u called ram sp
  obtain ⟨-, call, -, -⟩ := callPushesAndReturnPulls w s
  obtain ⟨-, -, -, returned⟩ := callPushesAndReturnPulls w u
  rw [call] at called
  cases called
  have spRestored : u.cpu.sp + 2 = s.cpu.sp := by rw [sp, BitVec.sub_add_cancel]
  have slotBelow : u.cpu.sp + 1 = s.cpu.sp - 1 := by rw [← spRestored]; bv_omega
  have apart : 0x100 + s.cpu.sp.toNat ≠ 0x100 + (s.cpu.sp - 1).toNat := by bv_omega
  rw [returned, spRestored, slotBelow, ram, word_read_write_write _ apart, BitVec.sub_add_cancel]

end Sys2Proof.Machine
end

section
/-! SUPPORT. The stack instructions in terms of RAM: a push stores at 0x0100 + SP, a pull loads from 0x0100 + SP + 1 (R260 to R263). -/

namespace Sys2Proof.Machine

/-- PLA's operation, in terms of RAM (R262). -/
theorem pullA_eq (s : State) :
    pullA s =
      (let top := s.bus.ram.read (0x100 + (s.cpu.sp + 1).toNat)
       { s with cpu := { s.cpu with a := top, p := ((statusBits s.cpu.p).zn top).byte, sp := s.cpu.sp + 1 } }) := by
  simp only [pullA, pull_eq, State.setZN, State.setP, State.setA, withZN_bits]

/-- PLP's operation, in terms of RAM (R263). -/
theorem pullP_eq (s : State) :
    pullP s =
      (let top := s.bus.ram.read (0x100 + (s.cpu.sp + 1).toNat)
       { s with cpu := { s.cpu with
           p := StatusBits.byte { statusBits top with b := false, u := true }, sp := s.cpu.sp + 1 } }) := by
  simp only [pullP, pull_eq, State.setP, pulledStatus_bits]

theorem exec_pha (s : State) : exec .pha s = finish 3 (push s.cpu.a s) := rfl

theorem exec_php (s : State) : exec .php s = finish 3 (push (pushedByPhp s.cpu.p) s) := rfl

theorem exec_pla (s : State) : exec .pla s = finish 4 (pullA s) := rfl

theorem exec_plp (s : State) : exec .plp s = finish 4 (pullP s) := rfl

/-- Settles O20: each of the four is one push or one pull in terms of RAM, with P as status bits. -/
theorem stackInstructions : Obligations.StackInstructions := by
  intro s sp top
  refine ⟨rfl, rfl, rfl, rfl, ?pha, ?php, ?pla, ?plp⟩
  case pha => rw [exec_pha, push_eq, finish, State.setCycles]
  case php => rw [exec_php, push_eq, pushedByPhp_bits, finish, State.setCycles]
  case pla => rw [exec_pla, pullA_eq, finish, State.setCycles]
  case plp => rw [exec_plp, pullP_eq, finish, State.setCycles]

end Sys2Proof.Machine
end

section
/-! SUPPORT. The flag instructions, BRK, RTI, NOP and the illegal opcodes (R270 to R279, R282): the bits written, the entry and the
return in terms of RAM and status bits, and the counts R125 lists. -/

namespace Sys2Proof.Machine

/-! ## Illegal opcodes -/

/-- The rows of the illegal opcodes (R125): the opcode table gives them no base, their counts stand in `ILLEGAL_CYCLES`. -/
theorem illegalForms_hasRow : ∀ f ∈ illegalForms, Form.HasRow .illegal { f with base := 0 } :=
  List.map_inj_left.mp rfl

/-- The default `ILLEGAL_CYCLES` holds the counts R125 lists. -/
theorem illegalForms_default : ∀ f ∈ illegalForms, illegalCycles Config.params f.opcode = f.base :=
  List.map_inj_left.mp rfl

/-- What an illegal opcode answers (R282). -/
theorem exec_illegal {i : Instr} (h : i.row.mnemonic = .illegal) (s : State) :
    exec i s = .next { s with cpu := { s.cpu with cycles := illegalCycles s.params i.row.opcode } } := by
  rw [exec_eq_meaning, meaning, h]
  rfl

/-- A form at an illegal opcode's row is a no-op. -/
theorem Form.HasRow.idles {f : Form} (row : Form.HasRow .illegal { f with base := 0 })
    (count : illegalCycles Config.params f.opcode = f.base) : f.idles := by
  have opcode : f.instr.row.opcode = f.opcode := congrArg Row.opcode row
  exact ⟨row.encoded, count, fun s => by rw [exec_illegal row.mnemonic, opcode]⟩

/-- Settles O24: NOP changes no register, and each listed form is an illegal opcode's row with its default count. -/
theorem noOperationAndIllegalOpcodes : Obligations.NoOperationAndIllegalOpcodes := by
  refine ⟨?nop, rfl, fun f listed => ?illegal⟩
  case nop => exact Form.HasRow.sets (m := .nop) rfl (by decide)
  case illegal => exact (illegalForms_hasRow f listed).idles (illegalForms_default f listed)

/-! ## BRK and RTI -/

theorem exec_brk (s : State) : exec .brk s = finish 7 (enter 0xFFFE true (s.setPc (s.cpu.pc + 1))) := rfl

theorem exec_rti (s : State) : exec .rti s = finish 6 (returnFromInterrupt s) := rfl

/-- Settles O22: BRK is the common entry with PC moved past the padding byte; the reads of the vector, above the devices, change
nothing and do not depend on the CPU's registers. -/
theorem breakEntersTheHandler : Obligations.BreakEntersTheHandler := by
  intro s ret sp ram1 ram2 ram3 pushed lo hi
  -- The entry reads the vector with PC past the padding byte and the count not yet set.
  have vectorByte (a : Addr) : (cpuRead pushed a).1 =
      (cpuRead { pushed with cpu := { pushed.cpu with pc := ret, cycles := s.cpu.cycles } } a).1 :=
    (cpuRead_fst_withCpu pushed _ a).symm
  have vectorRead (u : State) := memRead2_above u (a := 0xFFFE) (by decide) (by decide)
  refine ⟨rfl, ?exec⟩
  case exec =>
    simp only [exec_brk, enter_eq, vectorRead, pushedByEntry_bits, withI_bits, lo, hi, vectorByte]
    rfl

/-- Settles O23: RTI is the return from an exception, with the pulled P as status bits. -/
theorem returnFromInterruptRestores : Obligations.ReturnFromInterruptRestores := by
  intro s slot
  exact ⟨rfl, by rw [exec_rti, returnFromInterrupt_eq, pulledStatus_bits, finish, State.setCycles]⟩

/-! ## Flag instructions -/

/-- Settles O21: each is a row of its mnemonic, and changes registers only. -/
theorem flagInstructions : Obligations.FlagInstructions := by
  refine ⟨?clc, ?sec, ?cli, ?sei, ?clv, ?cld, ?sed⟩
  case clc => exact Form.HasRow.sets (m := .clc) rfl (by decide)
  case sec => exact Form.HasRow.sets (m := .sec) rfl (by decide)
  case cli => exact Form.HasRow.sets (m := .cli) rfl (by decide)
  case sei => exact Form.HasRow.sets (m := .sei) rfl (by decide)
  case clv => exact Form.HasRow.sets (m := .clv) rfl (by decide)
  case cld => exact Form.HasRow.sets (m := .cld) rfl (by decide)
  case sed => exact Form.HasRow.sets (m := .sed) rfl (by decide)

end Sys2Proof.Machine
end

section
/-! SUPPORT. The PPU ports bit by bit: the byte port 2 answers, and each field a port write loads into `t` (R303 to R312). -/

namespace Sys2Proof.Machine

/-- A byte masked to its low `n` bits. -/
theorem getLsbD_and_lowMask {n : Nat} {mask : Byte} (isMask : ∀ j < 8, mask.getLsbD j = decide (j < n)) (d : Byte) (j : Nat) :
    (d &&& mask).getLsbD j = (decide (j < n) && d.getLsbD j) := by
  rw [BitVec.getLsbD_and, Bool.and_comm]
  by_cases h : j < 8
  · rw [isMask j h]
  · rw [BitVec.getLsbD_of_ge d j (by omega), Bool.and_false, Bool.and_false]

/-! ## Reads -/

theorem statusByte_getLsbD (st : PpuStatus) {k : Nat} (h : k < 8) : (statusByte st).getLsbD k =
    if k = 7 then st.verticalBlank else if k = 6 then st.spriteZeroHit else if k = 5 then st.spriteOverflow else false := by
  obtain ⟨blank, zeroHit, overflow⟩ := st
  revert blank zeroHit overflow k
  decide

/-- The byte of port 2: the status bits over the low five of the data buffer (R304). -/
theorem readStatusPort_getLsbD (p : Ppu) {k : Nat} (h : k < 8) : (readStatusPort p).1.getLsbD k =
    if k = 7 then p.status.verticalBlank else if k = 6 then p.status.spriteZeroHit
    else if k = 5 then p.status.spriteOverflow else p.dataBuffer.getLsbD k := by
  rw [readStatusPort, BitVec.getLsbD_or, statusByte_getLsbD _ h, getLsbD_and_lowMask (n := 5) (by decide)]
  by_cases low : k < 5
  · simp [low, show k ≠ 7 by omega, show k ≠ 6 by omega, show k ≠ 5 by omega]
  · obtain rfl | rfl | rfl : k = 5 ∨ k = 6 ∨ k = 7 := by omega
    all_goals simp

/-- Port 7 read, with the address and the increment as numbers (R308). -/
theorem readDataPort_eq (cart : Option Cartridge) (gray : BitVec 6) (p : Ppu) :
    let fresh := ppuRead cart gray p (BitVec.ofNat 16 (p.v.toNat % 0x4000))
    readDataPort cart gray p =
      (if 0x3F00 ≤ p.v.toNat % 0x4000 then fresh else p.dataBuffer,
       { p with dataBuffer := fresh, v := BitVec.ofNat 15 (p.v.toNat + if p.ctrl.getLsbD 2 then 32 else 1) }) := by
  have address : (BitVec.ofNat 16 (p.v.toNat % 0x4000)).toNat = p.v.toNat % 0x4000 := by
    rw [BitVec.toNat_ofNat]
    omega
  simp only [readDataPort, dataAddress_eq, advanceV_eq, address]

/-- Settles O46: port 2 bit by bit, ports 4 and 7 by their definitions, the other five by the port map. -/
theorem ppuPortReads : Obligations.PpuPortReads := by
  intro cart gray p at7 fresh low5
  refine ⟨fun k hk => ?low, readStatusPort_getLsbD p (by decide), readStatusPort_getLsbD p (by decide),
    readStatusPort_getLsbD p (by decide), rfl, rfl, readDataPort_eq cart gray p, ?others⟩
  case low =>
    have bit := readStatusPort_getLsbD p (k := k) (by omega)
    rwa [if_neg (by omega), if_neg (by omega), if_neg (by omega)] at bit
  case others =>
    intro port listed
    simp only [List.mem_cons, List.not_mem_nil, or_false] at listed
    rcases listed with rfl | rfl | rfl | rfl | rfl <;> rfl

/-! ## Writes -/

/-- The `n` bits from `lo` up replaced: they come from the new value, the others stay. -/
theorem getLsbD_replaceField {m lo n k : Nat} {v mask : BitVec 15} {field : BitVec m} (hk : k < 15)
    (isMask : ∀ j < 15, mask.getLsbD j = decide (lo ≤ j ∧ j < lo + n)) (fits : ∀ j, n ≤ j → field.getLsbD j = false) :
    ((v &&& ~~~mask) ||| (field.setWidth 15 <<< lo)).getLsbD k =
      if lo ≤ k ∧ k < lo + n then field.getLsbD (k - lo) else v.getLsbD k := by
  have inside : k - lo < 15 := by omega
  simp only [BitVec.getLsbD_or, BitVec.getLsbD_and, BitVec.getLsbD_not, BitVec.getLsbD_shiftLeft, BitVec.getLsbD_setWidth,
    isMask k hk, hk, inside, decide_true, Bool.true_and]
  by_cases below : k < lo
  · simp [below, show ¬lo ≤ k by omega]
  · by_cases above : k < lo + n
    · simp [below, above, show lo ≤ k by omega]
    · simp [below, above, fits (k - lo) (by omega)]

/-- The low `n` bits replaced. -/
theorem getLsbD_replaceLow {m n k : Nat} {v mask : BitVec 15} {field : BitVec m} (hk : k < 15)
    (isMask : ∀ j < 15, mask.getLsbD j = decide (j < n)) (fits : ∀ j, n ≤ j → field.getLsbD j = false) :
    ((v &&& ~~~mask) ||| field.setWidth 15).getLsbD k = if k < n then field.getLsbD k else v.getLsbD k := by
  have bits := getLsbD_replaceField (v := v) (lo := 0) hk (by simpa using isMask) fits
  simpa only [BitVec.shiftLeft_zero, Nat.zero_add, Nat.sub_zero, Nat.zero_le, true_and] using bits

/-- Port 0 loads bits 10 and 11 of `t` (R303). -/
theorem writeControl_t_getLsbD (p : Ppu) (d : Byte) {k : Nat} (hk : k < 15) : (writeControl p d).t.getLsbD k =
    if k = 10 then d.getLsbD 0 else if k = 11 then d.getLsbD 1 else p.t.getLsbD k := by
  have low := getLsbD_and_lowMask (mask := 0x03) (n := 2) (by decide) d
  have fits (j : Nat) (h : 2 ≤ j) : (d &&& 0x03).getLsbD j = false := by
    rw [low, decide_eq_false (by omega), Bool.false_and]
  rw [writeControl, getLsbD_replaceField hk (by decide) fits, low]
  by_cases field : 10 ≤ k ∧ k < 10 + 2
  · obtain rfl | rfl : k = 10 ∨ k = 11 := by omega
    all_goals simp
  · rw [if_neg field, if_neg (by omega), if_neg (by omega)]

/-- The first write of port 5 (R310). -/
theorem writeScroll_first {p : Ppu} (h : p.w = false) (d : Byte) : writeScroll p d =
    { p with fineX := BitVec.ofNat 3 d.toNat, t := withCoarseX p.t (d.extractLsb' 3 5), w := true } := by
  rw [writeScroll, if_neg (by simp [h])]
  rfl

/-- The second write of port 5 (R310). -/
theorem writeScroll_second {p : Ppu} (h : p.w = true) (d : Byte) : writeScroll p d =
    { p with t := withCoarseY (withFineY p.t (d.extractLsb' 0 3)) (d.extractLsb' 3 5), w := false } := by
  rw [writeScroll, if_pos h]

theorem withCoarseX_getLsbD (v : BitVec 15) (f : BitVec 5) {k : Nat} (hk : k < 15) :
    (withCoarseX v f).getLsbD k = if k < 5 then f.getLsbD k else v.getLsbD k :=
  getLsbD_replaceLow hk (by decide) (BitVec.getLsbD_of_ge f)

theorem withCoarseY_getLsbD (v : BitVec 15) (f : BitVec 5) {k : Nat} (hk : k < 15) :
    (withCoarseY v f).getLsbD k = if 5 ≤ k ∧ k < 10 then f.getLsbD (k - 5) else v.getLsbD k :=
  getLsbD_replaceField hk (by decide) (BitVec.getLsbD_of_ge f)

theorem withFineY_getLsbD (v : BitVec 15) (f : BitVec 3) {k : Nat} (hk : k < 15) :
    (withFineY v f).getLsbD k = if 12 ≤ k then f.getLsbD (k - 12) else v.getLsbD k := by
  have bits : (withFineY v f).getLsbD k = if 12 ≤ k ∧ k < 15 then f.getLsbD (k - 12) else v.getLsbD k :=
    getLsbD_replaceField hk (by decide) (BitVec.getLsbD_of_ge f)
  simpa only [hk, and_true] using bits

/-- The first write of port 6 (R311). -/
theorem writeAddress_first {p : Ppu} (h : p.w = false) (d : Byte) : writeAddress p d =
    { p with t := (p.t &&& ~~~0x7F00#15) ||| ((d &&& 0x3F).setWidth 15 <<< 8), w := true } := by
  rw [writeAddress, if_neg (by simp [h])]
  rfl

/-- The second write of port 6 (R311). -/
theorem writeAddress_second {p : Ppu} (h : p.w = true) (d : Byte) : writeAddress p d =
    { p with t := (p.t &&& ~~~0x00FF#15) ||| d.setWidth 15, v := (p.t &&& ~~~0x00FF#15) ||| d.setWidth 15, w := false } := by
  rw [writeAddress, if_pos h]

/-- The first byte of port 6: bits 13 to 8 from its low six, bit 14 cleared (R311). -/
theorem highAddress_getLsbD (t : BitVec 15) (d : Byte) {k : Nat} (hk : k < 15) :
    ((t &&& ~~~0x7F00#15) ||| ((d &&& 0x3F).setWidth 15 <<< 8)).getLsbD k =
      if k = 14 then false else if 8 ≤ k then d.getLsbD (k - 8) else t.getLsbD k := by
  have low := getLsbD_and_lowMask (mask := 0x3F) (n := 6) (by decide) d
  have fits (j : Nat) (h : 7 ≤ j) : (d &&& 0x3F).getLsbD j = false := by
    rw [low, decide_eq_false (by omega), Bool.false_and]
  rw [getLsbD_replaceField hk (by decide) fits, low]
  by_cases top : k = 14
  · simp [top]
  · by_cases high : 8 ≤ k
    · simp [top, high, show k < 15 by omega, show k - 8 < 6 by omega]
    · simp [top, high]

/-- Port 7 write, with the address and the increment as numbers (R309). -/
theorem writeDataPort_eq (cart : Option Cartridge) (p : Ppu) (d : Byte) : writeDataPort cart p d =
    { ppuWrite cart p (BitVec.ofNat 16 (p.v.toNat % 0x4000)) d with
      v := BitVec.ofNat 15 (p.v.toNat + if p.ctrl.getLsbD 2 then 32 else 1) } := by
  rw [writeDataPort, dataAddress_eq, advanceV_eq]

/-- Settles O47: ports 5 and 6 by both halves of the toggle, each field of `t` by its bits. -/
theorem ppuPortWrites : Obligations.PpuPortWrites := by
  intro cart p d port bit
  refine ⟨rfl, fun k hk => writeControl_t_getLsbD p d hk, rfl, rfl, rfl, rfl, fun h => ?scroll1, fun h => ?scroll2,
    fun h => ?address1, fun h => ?address2, writeDataPort_eq cart p d⟩
  case scroll1 =>
    rw [show port 5 = _ from writeScroll_first h d]
    refine ⟨rfl, fun k hk => ?_⟩
    rw [withCoarseX_getLsbD _ _ hk, BitVec.getLsbD_extractLsb', Nat.add_comm 3 k]
    by_cases low : k < 5
    · simp [low, bit]
    · simp [low]
  case scroll2 =>
    rw [show port 5 = _ from writeScroll_second h d]
    refine ⟨rfl, fun k hk => ?_⟩
    rw [withCoarseY_getLsbD _ _ hk, withFineY_getLsbD _ _ hk, BitVec.getLsbD_extractLsb', BitVec.getLsbD_extractLsb']
    by_cases fine : 12 ≤ k
    · simp [fine, show ¬k < 10 by omega, show k - 12 < 3 by omega, bit]
    · by_cases coarse : 5 ≤ k ∧ k < 10
      · simp [fine, coarse, show k - 5 < 5 by omega, show 3 + (k - 5) = k - 2 by omega, bit]
      · simp [fine, coarse]
  case address1 =>
    rw [show port 6 = _ from writeAddress_first h d]
    exact ⟨rfl, fun k hk => highAddress_getLsbD p.t d hk⟩
  case address2 =>
    rw [show port 6 = _ from writeAddress_second h d]
    exact ⟨rfl, fun k hk => getLsbD_replaceLow hk (by decide) (BitVec.getLsbD_of_ge d)⟩

end Sys2Proof.Machine
end

section
/-! SUPPORT. The background pipeline at one tick: what the latches and the shifters hold afterwards, with the fetch addresses as
numbers (R343, R344, R346 to R350), and the one picture element a tick may write (R368). -/

namespace Sys2Proof.Machine

/-! ## Fields of `v` and fetch addresses as numbers -/

theorem coarseX_toNat (v : BitVec 15) : (coarseX v).toNat = v.toNat % 32 := by
  rw [coarseX, BitVec.extractLsb'_toNat, Nat.shiftRight_zero]

theorem coarseY_toNat (v : BitVec 15) : (coarseY v).toNat = v.toNat / 32 % 32 := by
  rw [coarseY, BitVec.extractLsb'_toNat, Nat.shiftRight_eq_div_pow]

theorem fineY_toNat (v : BitVec 15) : (fineY v).toNat = v.toNat / 0x1000 := by
  have := v.isLt
  rw [fineY, BitVec.extractLsb'_toNat, Nat.shiftRight_eq_div_pow]
  omega

theorem nametableAddress_eq (p : Ppu) : nametableAddress p = BitVec.ofNat 16 (0x2000 + p.v.toNat % 0x1000) := by
  apply BitVec.eq_of_toNat_eq
  have offset : (p.v.setWidth 16 &&& 0x0FFF).toNat = p.v.toNat % 0x1000 := by
    rw [BitVec.toNat_and, BitVec.toNat_setWidth_of_le (by decide)]
    exact Nat.and_two_pow_sub_one_eq_mod _ 12
  calc (nametableAddress p).toNat = 2 ^ 13 * 1 ||| p.v.toNat % 0x1000 := by
        rw [nametableAddress, BitVec.toNat_or, offset]
        rfl
    _ = 2 ^ 13 * 1 + p.v.toNat % 0x1000 := (Nat.two_pow_add_eq_or_of_lt (by omega) 1).symm
    _ = (BitVec.ofNat 16 (0x2000 + p.v.toNat % 0x1000)).toNat := by rw [BitVec.toNat_ofNat]; omega

/-- The nametable bits of an address, in place. -/
theorem and_nametableBits (n : Nat) : n &&& 0x0C00 = n / 0x400 % 4 * 0x400 := by
  have high : (n &&& 0x0C00) / 2 ^ 10 = n / 0x400 % 4 := by
    rw [Nat.and_div_two_pow]
    exact Nat.and_two_pow_sub_one_eq_mod _ 2
  have low : (n &&& 0x0C00) % 2 ^ 10 = 0 := by
    rw [Nat.and_mod_two_pow]
    exact Nat.and_zero _
  omega

theorem attributeAddress_eq (p : Ppu) : attributeAddress p =
    BitVec.ofNat 16 (0x23C0 + p.v.toNat / 0x400 % 4 * 0x400 + p.v.toNat / 128 % 8 * 8 + p.v.toNat / 4 % 8) := by
  apply BitVec.eq_of_toNat_eq
  have bank : (p.v.setWidth 16 &&& 0x0C00).toNat = p.v.toNat / 0x400 % 4 * 0x400 := by
    rw [BitVec.toNat_and, BitVec.toNat_setWidth_of_le (by decide)]
    exact and_nametableBits _
  have row : (((coarseY p.v).setWidth 16 >>> 2) <<< 3 : Addr).toNat = p.v.toNat / 128 % 8 * 8 := by
    rw [BitVec.toNat_shiftLeft, BitVec.toNat_ushiftRight, BitVec.toNat_setWidth_of_le (by decide), coarseY_toNat,
      Nat.shiftLeft_eq, Nat.shiftRight_eq_div_pow]
    omega
  have column : ((coarseX p.v).setWidth 16 >>> 2 : Addr).toNat = p.v.toNat / 4 % 8 := by
    rw [BitVec.toNat_ushiftRight, BitVec.toNat_setWidth_of_le (by decide), coarseX_toNat, Nat.shiftRight_eq_div_pow]
    omega
  have base : ∀ n < 4, 0x23C0 ||| n * 0x400 = 0x23C0 + n * 0x400 := by decide
  generalize hn : p.v.toNat / 0x400 % 4 = n at bank ⊢
  generalize hr : p.v.toNat / 128 % 8 = r at row ⊢
  generalize hc : p.v.toNat / 4 % 8 = c at column ⊢
  calc (attributeAddress p).toNat = 0x23C0 ||| n * 0x400 ||| r * 8 ||| c := by
        rw [← bank, ← row, ← column]
        rfl
    _ = 2 ^ 6 * (0x8F + n * 16) ||| r * 8 ||| c := by rw [base n (by omega)]; congr 2; omega
    _ = 2 ^ 3 * (0x478 + n * 128 + r) ||| c := by rw [← Nat.two_pow_add_eq_or_of_lt (by omega)]; congr 1; omega
    _ = 0x23C0 + n * 0x400 + r * 8 + c := by rw [← Nat.two_pow_add_eq_or_of_lt (by omega)]; omega
    _ = (BitVec.ofNat 16 (0x23C0 + n * 0x400 + r * 8 + c)).toNat := by rw [BitVec.toNat_ofNat]; omega

theorem patternAddress_eq (p : Ppu) : patternAddress p =
    BitVec.ofNat 16 ((p.ctrl.getLsbD 4).toNat * 0x1000 + p.bgNextId.toNat * 16 + p.v.toNat / 0x1000) := by
  have table : ((if p.ctrl.getLsbD 4 then 0x1000 else 0 : Nat) : Addr) =
      BitVec.ofNat 16 ((p.ctrl.getLsbD 4).toNat * 0x1000) := by
    cases p.ctrl.getLsbD 4 <;> rfl
  have tile : (p.bgNextId.setWidth 16 <<< 4 : Addr) = BitVec.ofNat 16 (p.bgNextId.toNat * 16) := by
    apply BitVec.eq_of_toNat_eq
    rw [BitVec.toNat_shiftLeft, BitVec.toNat_setWidth_of_le (by decide), Nat.shiftLeft_eq, BitVec.toNat_ofNat]
  have row : (fineY p.v).setWidth 16 = BitVec.ofNat 16 (p.v.toNat / 0x1000) := by
    rw [← fineY_toNat, BitVec.ofNat_toNat]
  rw [patternAddress, BitVec.ofNat_add, BitVec.ofNat_add, ← tile, ← row, ← table]

/-- The two bits of the quadrant, cut out of the fetched byte by a division (R348). -/
theorem fetchAttribute_bgNextAttr (cart : Option Cartridge) (gray : BitVec 6) (p : Ppu) :
    (fetchAttribute cart gray p).bgNextAttr =
      BitVec.ofNat 2 ((ppuRead cart gray p (attributeAddress p)).toNat /
        2 ^ (4 * (p.v.toNat / 64 % 2) + 2 * (p.v.toNat / 2 % 2))) := by
  have lower : (coarseY p.v).getLsbD 1 = decide (p.v.toNat / 64 % 2 = 1) := by
    rw [BitVec.getLsbD, Nat.testBit_eq_decide_div_mod_eq, coarseY_toNat]
    exact decide_eq_decide.mpr (by omega)
  have right : (coarseX p.v).getLsbD 1 = decide (p.v.toNat / 2 % 2 = 1) := by
    rw [BitVec.getLsbD, Nat.testBit_eq_decide_div_mod_eq, coarseX_toNat]
    exact decide_eq_decide.mpr (by omega)
  unfold fetchAttribute
  generalize ppuRead cart gray p (attributeAddress p) = b
  have half (c : Byte) (n m : Nat) : (if decide (n % 2 = 1) then c >>> m else c) = c >>> (m * (n % 2)) := by
    rcases Nat.mod_two_eq_zero_or_one n with h | h <;> simp [h]
  dsimp only
  rw [lower, right, half, half, ← BitVec.shiftRight_add]
  apply BitVec.eq_of_toNat_eq
  rw [BitVec.extractLsb'_toNat, Nat.shiftRight_zero, BitVec.toNat_ushiftRight, Nat.shiftRight_eq_div_pow, BitVec.toNat_ofNat]

/-! ## The background pipeline after a tick -/

theorem spreadBit_toNat (b : Bool) : (spreadBit b).toNat = if b then 0xFF else 0 := by cases b <;> rfl

section tick
variable (cart : Option Cartridge) (gray : BitVec 6) (k cy : Nat) (p : Ppu)

/-- A background shifter after a tick: it shifts where the background is on, then its low byte is loaded at place 0. -/
def shifterAfter (r : BitVec 16) (low : Byte) : BitVec 16 :=
  let shifted := if p.inFetchWindow && p.mask.getLsbD 3 then r <<< 1 else r
  if p.fetchSlot 0 then loadLow shifted low else shifted

theorem shifterAfter_eq (r : BitVec 16) (low : Byte) : shifterAfter p r low =
    (let shifted := if p.inFetchWindow && p.mask.getLsbD 3 then 2 * r.toNat else r.toNat
     BitVec.ofNat 16 (if p.fetchSlot 0 then shifted / 256 * 256 + low.toNat else shifted)) := by
  have shift : (r <<< 1).toNat = 2 * r.toNat % 2 ^ 16 := by
    rw [BitVec.toNat_shiftLeft, Nat.shiftLeft_eq, Nat.mul_comm, Nat.pow_one]
  unfold shifterAfter
  apply BitVec.eq_of_toNat_eq
  cases p.fetchSlot 0 <;> cases p.inFetchWindow && p.mask.getLsbD 3 <;>
    simp only [if_true, if_false, Bool.false_eq_true, loadLow_toNat, shift, BitVec.toNat_ofNat] <;> omega

/-- What place `k` of the fetch schedule does to each latch and each shifter (R343). -/
theorem fetchStep_background : backgroundOf (fetchStep cart gray k p) =
    (if k = 0 then (fetchNametable cart gray p).bgNextId else p.bgNextId,
     if k = 2 then (fetchAttribute cart gray p).bgNextAttr else p.bgNextAttr,
     if k = 4 then (fetchPatternLow cart gray p).bgNextLsb else p.bgNextLsb,
     if k = 6 then (fetchPatternHigh cart gray p).bgNextMsb else p.bgNextMsb,
     if k = 0 then loadLow p.bgPatLo p.bgNextLsb else p.bgPatLo,
     if k = 0 then loadLow p.bgPatHi p.bgNextMsb else p.bgPatHi,
     if k = 0 then loadLow p.bgAttrLo (spreadBit (p.bgNextAttr.getLsbD 0)) else p.bgAttrLo,
     if k = 0 then loadLow p.bgAttrHi (spreadBit (p.bgNextAttr.getLsbD 1)) else p.bgAttrHi) := by
  by_cases place : k = 0 ∨ k = 2 ∨ k = 4 ∨ k = 6
  · rcases place with rfl | rfl | rfl | rfl <;> rfl
  · simp only [not_or] at place
    obtain ⟨k0, k2, k4, k6⟩ := place
    have kept : backgroundOf (fetchStep cart gray k p) = backgroundOf p := by
      rw [fetchStep, if_neg k0, if_neg k2, if_neg k4, if_neg k6]
      split
      · exact incrementScrollX_background p
      · rfl
    rw [kept]
    simp only [backgroundOf, k0, k2, k4, k6, if_false]

theorem shiftBackground_eq : shiftBackground p =
    (let shift (r : BitVec 16) := if p.mask.getLsbD 3 then r <<< 1 else r
     { p with
       bgPatLo := shift p.bgPatLo, bgPatHi := shift p.bgPatHi
       bgAttrLo := shift p.bgAttrLo, bgAttrHi := shift p.bgAttrHi }) := by
  unfold shiftBackground
  split <;> rfl

theorem shiftSprites_eq : shiftSprites cy p = { p with spr := (shiftSprites cy p).spr } := by
  unfold shiftSprites
  split <;> rfl

/-- The background pipeline after a tick: the latches fetch from the PPU as it was, each at its place of the schedule. -/
theorem ppuTickOf_pipeline : backgroundOf (ppuTickOf cart gray p) =
    (if p.fetchSlot 0 then (fetchNametable cart gray p).bgNextId else p.bgNextId,
     if p.fetchSlot 2 then (fetchAttribute cart gray p).bgNextAttr else p.bgNextAttr,
     if p.fetchSlot 4 then (fetchPatternLow cart gray p).bgNextLsb else p.bgNextLsb,
     if p.fetchSlot 6 then (fetchPatternHigh cart gray p).bgNextMsb else p.bgNextMsb,
     shifterAfter p p.bgPatLo p.bgNextLsb, shifterAfter p p.bgPatHi p.bgNextMsb,
     shifterAfter p p.bgAttrLo (spreadBit (p.bgNextAttr.getLsbD 0)),
     shifterAfter p p.bgAttrHi (spreadBit (p.bgNextAttr.getLsbD 1))) := by
  rw [ppuTickOf_background]
  by_cases window : p.inFetchWindow = true
  · rw [if_pos window, windowStep, fetchStep_background, shiftSprites_eq, shiftBackground_eq]
    simp only [shifterAfter, Ppu.fetchSlot, window, Bool.true_and, decide_eq_true_eq]
    rfl
  · rw [if_neg window]
    simp only [shifterAfter, Ppu.fetchSlot, window, Bool.false_and, Bool.false_eq_true, if_false]
    rfl

/-! ## The picture after a tick -/

theorem afterBlank_picture : (afterBlank cart gray p).frame = p.frame := by
  have render := congrArg (fun q => q.frame) (afterRender_frame cart gray p)
  exact (onlyIf_keeps (fun q => q.frame) startVerticalBlank (fun _ => rfl) _).trans render

theorem ppuTickOf_picture : (ppuTickOf cart gray p).frame =
    if p.onVisible 1 256 then (composePixel cart gray p.scanline.toNat p.cycle (afterBlank cart gray p)).frame
    else p.frame := by
  rw [ppuTickOf_eq, advanceCounters_frame]
  show (afterCompose cart gray p).frame = _
  have drawing := onVisible_iff p 1 256
  by_cases h : p.onVisible 1 256 = true
  · rw [if_pos h, afterCompose, onlyIf_pos (drawing.mp h)]
  · rw [if_neg h, afterCompose, onlyIf_neg (fun inside => h (drawing.mpr inside)), afterBlank_picture]

/-- Where a tick draws, it writes no picture element but that of its position (R368). -/
theorem composePixel_picture_read (row : Nat) {key : Nat} (h : key ≠ 256 * row + (cy - 1)) :
    (composePixel cart gray row cy p).frame.read key = p.frame.read key :=
  Memory.read_write_other _ _ h

end tick

/-- Settles O51: the frame and the picture of a tick, and its background pipeline with each fetch and shift as numbers. -/
theorem ppuTickFrame : Obligations.PpuTickFrame := by
  intro cart gray p q drawing v read tileRow shifted next
  have pipeline := ppuTickOf_pipeline cart gray p
  simp only [backgroundOf, Prod.mk.injEq] at pipeline
  obtain ⟨nextId, nextAttr, nextLsb, nextMsb, patLo, patHi, attrLo, attrHi⟩ := pipeline
  have picture := ppuTickOf_picture cart gray p
  refine ⟨?kept, fun h => ?blank, fun h key other => ?drawn, ?nextId, ?nextAttr, ?nextLsb, ?nextMsb,
    patLo.trans (shifterAfter_eq p _ _), patHi.trans (shifterAfter_eq p _ _), ?attrLo, ?attrHi⟩
  case kept =>
    rw [show q = _ from ppuTickOf_frame cart gray p]
    exact ⟨rfl, rfl, rfl, rfl, rfl, rfl, rfl, rfl, rfl, rfl, rfl, rfl⟩
  case blank => exact picture.trans (if_neg (Bool.eq_false_iff.mp h))
  case drawn =>
    rw [show q.frame = _ from picture, if_pos h, composePixel_picture_read _ _ _ _ _ other, afterBlank_picture]
  case nextId => rw [nextId, fetchNametable, nametableAddress_eq]
  case nextAttr => rw [nextAttr, fetchAttribute_bgNextAttr, attributeAddress_eq]
  case nextLsb => rw [nextLsb, fetchPatternLow, patternAddress_eq]
  case nextMsb =>
    have high : patternAddress p + 8 = BitVec.ofNat 16 (tileRow + 8) := by
      rw [patternAddress_eq]
      exact (BitVec.ofNat_add tileRow 8).symm
    rw [nextMsb, fetchPatternHigh, high]
  case attrLo => rw [attrLo, shifterAfter_eq, spreadBit_toNat]
  case attrHi => rw [attrHi, shifterAfter_eq, spreadBit_toNat]

end Sys2Proof.Machine
end

section
/-! SUPPORT. The interrupt entry, the return from it, and the two resets (R443 to R446, R450, R415). -/

namespace Sys2Proof.Machine

/-- Settles O30: the entry in terms of RAM, with P as status bits. -/
theorem entryPushesAndJumps : Obligations.EntryPushesAndJumps := by
  intro vector b s
  rw [enter_eq, pushedByEntry_bits, withI_bits]
  rfl

/-- The three stack slots after an entry (R444): the vector's reads store nothing. -/
theorem enter_ram (vector : Addr) (b : Bool) (s : State) :
    (enter vector b s).bus.ram =
      ((s.bus.ram.write (0x100 + s.cpu.sp.toNat) (hiByte s.cpu.pc)).write (0x100 + (s.cpu.sp - 1).toNat)
        (loByte s.cpu.pc)).write (0x100 + (s.cpu.sp - 2).toNat) (pushedByEntry b s.cpu.p) := by
  rw [enter_eq]
  simp [memRead2]

theorem enter_sp (vector : Addr) (b : Bool) (s : State) : (enter vector b s).cpu.sp = s.cpu.sp - 3 := by rw [enter_eq]

/-- Bits 4 and 5 of the pushed status are lost on the way back (R278). -/
theorem pulledStatus_pushedByEntry (b : Bool) (p : Byte) :
    pulledStatus (pushedByEntry b p) = StatusBits.byte { statusBits p with b := false, u := true } := by
  rw [pulledStatus_bits, pushedByEntry_bits, statusBits_byte]

/-- The three slots are different also where SP wraps, so a return with the stack of an entry reads what the entry pushed. -/
theorem returnFromInterrupt_of_enter {vector : Addr} {b : Bool} {s u : State}
    (ram : u.bus.ram = (enter vector b s).bus.ram) (sp : u.cpu.sp = (enter vector b s).cpu.sp) :
    returnFromInterrupt u = { u with cpu := { u.cpu with
      pc := s.cpu.pc, p := StatusBits.byte { statusBits s.cpu.p with b := false, u := true }, sp := s.cpu.sp } } := by
  have slot1 : s.cpu.sp - 3 + 1 = s.cpu.sp - 2 := by bv_omega
  have slot2 : s.cpu.sp - 3 + 2 = s.cpu.sp - 1 := by bv_omega
  have slot3 : s.cpu.sp - 3 + 3 = s.cpu.sp := by bv_omega
  have apart1 : 0x100 + (s.cpu.sp - 1).toNat ≠ 0x100 + (s.cpu.sp - 2).toNat := by bv_omega
  have apart2 : 0x100 + s.cpu.sp.toNat ≠ 0x100 + (s.cpu.sp - 2).toNat := by bv_omega
  have apart3 : 0x100 + s.cpu.sp.toNat ≠ 0x100 + (s.cpu.sp - 1).toNat := by bv_omega
  rw [returnFromInterrupt_eq, ram, sp, enter_ram, enter_sp, slot1, slot2, slot3]
  simp only [Memory.read_write_same, Memory.read_write_other _ _ apart1, Memory.read_write_other _ _ apart2,
    Memory.read_write_other _ _ apart3, pulledStatus_pushedByEntry, word_bytes]

/-- Settles O32: RTI is the return from an exception, and BRK is an entry with PC moved past the padding byte (R277). -/
theorem returnResumesAfterEntry : Obligations.ReturnResumesAfterEntry := by
  refine ⟨fun vector b s u ram sp => ?_, fun s t u ran ram sp => ?_⟩
  · rw [exec_rti, returnFromInterrupt_of_enter ram sp]
    rfl
  · rw [exec_brk] at ran
    cases ran
    rw [State.setCycles_sp] at sp
    rw [exec_rti, returnFromInterrupt_of_enter ram sp]
    rfl

/-- Settles O31: neither call needs the cartridge, and I is the bit that IRQ asks for. -/
theorem nmiAndIrqAreTaken : Obligations.NmiAndIrqAreTaken := by
  intro s rest quiet nmi irq
  refine ⟨(step_call rfl rfl).trans rfl, (step_call rfl rfl).trans ?_⟩
  show Host.Outcome.next (raiseIrq quiet) = _
  rw [raiseIrq]
  rfl

/-- The word a reset finds at its vector, by what answers a read of 0xFFFC (R59, R79, R82). -/
def resetVector : Option Cartridge → Addr
  | none => 0x0000
  | some c =>
    let k := if c.prgBanks = 1 then 0x3FFC else 0x7FFC
    word (c.prg.read (k + 1)) (c.prg.read k)

/-- The reads of the reset vector change nothing (R441). -/
theorem memRead2_resetVector (s : State) : memRead2 s 0xFFFC = (resetVector s.cart, s) := by
  rw [memRead2_above s (by decide) (by decide)]
  cases inserted : s.cart with
  | none =>
    have low := cpuRead_unmapped s (a := 0xFFFC) (by decide) (by decide) (by decide) (.inr inserted)
    have high := cpuRead_unmapped s (a := 0xFFFC + 1) (by decide) (by decide) (by decide) (.inr inserted)
    rw [low, high]
    exact congrArg (·, s) (show word 0 0 = 0x0000 by decide)
  | some c =>
    rw [cpuRead_prg s inserted (by decide), cpuRead_prg s inserted (by decide), Cartridge.prgOffset_eq,
      Cartridge.prgOffset_eq]
    by_cases one : c.prgBanks = 1 <;> simp [resetVector, one]

/-- Settles O33: both resets are the read of the vector and the values set. -/
theorem resetLeavesThese : Obligations.ResetLeavesThese := by
  intro s vector afterReset
  have reset : cpuReset s = { s with cpu := afterReset } := by
    rw [cpuReset, memRead2_resetVector]
    cases inserted : s.cart <;> simp [afterReset, vector, inserted, resetVector]
  exact ⟨reset, by rw [busReset, reset]; rfl⟩

end Sys2Proof.Machine
end

section
/-! SUPPORT. The order of a Bus tick (R400 to R402) and the controllers (R411). -/

namespace Sys2Proof.Machine

/-! ## The Bus tick -/

theorem dmaStep_clock (s : State) : (dmaStep s).bus.clock = s.bus.clock := by
  unfold dmaStep
  dsimp only
  split
  · split <;> rfl
  split
  · exact cpuRead_bus_clock s _
  · split <;> rfl

/-- A CPU slot leaves the clock alone. -/
theorem cpuSlot_clock {s t : State} (h : cpuSlot s = .next t) : t.bus.clock = s.bus.clock := by
  obtain ⟨-, -, rfl⟩ | ⟨-, -, tick⟩ | ⟨-, rfl⟩ := cpuSlot_cases h
  · exact dmaStep_clock s
  · have frame := cpuTick_frame tick
    unfold sameButBus at frame
    rw [frame]
  · rfl

/-- The end of a Bus tick leaves no NMI request (R402) and the clock one on. -/
theorem endBusTick_request_clock (s : State) :
    (endBusTick s).ppu.nmiRequest = false ∧ (endBusTick s).bus.clock = s.bus.clock + 1 := by
  obtain ⟨quiet, eq⟩ | ⟨-, n, rfl, eq⟩ := endBusTick_cases s
  · rw [eq]
    exact ⟨quiet, rfl⟩
  · have frame := enter_frame 0xFFFA false { s with ppu := { s.ppu with nmiRequest := false } }
    unfold sameButBus at frame
    rw [eq, raiseNmi, frame]
    exact ⟨rfl, rfl⟩

/-- Settles O37: a step is the slot of a Bus tick and its end; the end clears the request and advances the clock. -/
theorem busTickRunsInOrder : Obligations.BusTickRunsInOrder := by
  intro s idle inserted p slot ending
  rw [step_busTick idle inserted]
  refine ⟨rfl, fun t ran => ?_⟩
  obtain ⟨u, slotRan, rfl⟩ := busTick_cases ran
  obtain ⟨request, clock⟩ := endBusTick_request_clock u
  have kept : u.bus.clock = (ppuTick s).bus.clock := cpuSlot_clock slotRan
  exact ⟨request, clock.trans (congrArg (· + 1) kept)⟩

/-! ## The controllers -/

/-- Where each read of an address shifts a register one place, `k` reads shift it `k` places (R411). -/
theorem afterReads_shift (register : State → Byte) {a : Addr}
    (shifts : ∀ s, register (cpuRead s a).2 = register s <<< 1) (k : Nat) (s : State) :
    register (afterReads a k s) = register s <<< k := by
  induction k generalizing s with
  | zero => exact (BitVec.shiftLeft_zero _).symm
  | succ k ih => rw [afterReads, ih, shifts, Nat.add_comm, BitVec.shiftLeft_add]

theorem afterReads_controller0 (k : Nat) (s : State) :
    (afterReads 0x4016 k s).bus.ctrlShift0 = s.bus.ctrlShift0 <<< k :=
  afterReads_shift (·.bus.ctrlShift0) (fun s => by rw [cpuRead_controller0]; rfl) k s

theorem afterReads_controller1 (k : Nat) (s : State) :
    (afterReads 0x4017 k s).bus.ctrlShift1 = s.bus.ctrlShift1 <<< k :=
  afterReads_shift (·.bus.ctrlShift1) (fun s => by rw [cpuRead_controller1]; rfl) k s

/-- After `k` shifts bit 7 - k stands in front, and from the eighth on a zero (R411). -/
theorem controllerBit_shiftLeft (b : Byte) (k : Nat) :
    controllerBit (b <<< k) = if decide (k < 8) && b.getLsbD (7 - k) then 1 else 0 := by
  have front : (b <<< k).getLsbD 7 = (decide (k < 8) && b.getLsbD (7 - k)) := by
    rw [BitVec.getLsbD_shiftLeft]
    by_cases h : k < 8
    · simp [h, show ¬7 < k by omega]
    · simp [h, show 7 < k by omega]
  rw [controllerBit, front]

/-- Settles O44: the latch loads the input, and each read shifts it. -/
theorem controllersShiftOutMsbFirst : Obligations.ControllersShiftOutMsbFirst := by
  intro s d k
  refine ⟨?_, ?_, by rw [cpuWrite_controller0]; rfl, by rw [cpuWrite_controller1]; rfl⟩
  · rw [cpuRead_controller0, afterReads_controller0, cpuWrite_controller0, ← controllerBit_shiftLeft]
    rfl
  · rw [cpuRead_controller1, afterReads_controller1, cpuWrite_controller1, ← controllerBit_shiftLeft]
    rfl

end Sys2Proof.Machine
end

section
/-! SUPPORT. The parts of a PPU tick by raster position (R340): which tick starts vertical blank, which draws, and what each does to
the status bits and the NMI request (R342, R370); and the sprite patterns that no fetch has loaded. -/

namespace Sys2Proof.Machine

section tick
variable (cart : Option Cartridge) (gray : BitVec 6) (p : Ppu)

theorem advanceCounters_status : (advanceCounters p).status = p.status := by rw [advanceCounters_frame]
theorem advanceCounters_nmiRequest : (advanceCounters p).nmiRequest = p.nmiRequest := by rw [advanceCounters_frame]
theorem advanceCounters_frameMemory : (advanceCounters p).frame = p.frame := by rw [advanceCounters_frame]

/-- Outside lines -1 to 239 step 1 does nothing. -/
theorem afterRender_of_blankLine (h : 240 ≤ p.scanline) : afterRender cart gray p = p := onlyIf_neg (by omega) _ _

/-- A tick at (241, 1) starts vertical blank, and does nothing else but count (R370). -/
theorem ppuTickOf_blank (h : p.scanline = 241 ∧ p.cycle = 1) :
    ppuTickOf cart gray p = advanceCounters (startVerticalBlank p) := by
  rw [ppuTickOf_eq, afterCompose, onlyIf_neg (by omega), afterBlank, onlyIf_pos h,
    afterRender_of_blankLine _ _ _ (by omega)]

/-- A tick in the picture window draws what step 1 leaves (R368). -/
theorem ppuTickOf_drawing (h : p.onVisible 1 256 = true) :
    ppuTickOf cart gray p =
      advanceCounters (composePixel cart gray p.scanline.toNat p.cycle (afterRender cart gray p)) := by
  have inside := (onVisible_iff p 1 256).mp h
  rw [ppuTickOf_eq, afterCompose, onlyIf_pos inside, afterBlank, onlyIf_neg (by omega)]

/-- At every other position a tick is step 1. -/
theorem ppuTickOf_other (notBlank : ¬(p.scanline = 241 ∧ p.cycle = 1)) (h : p.onVisible 1 256 = false) :
    ppuTickOf cart gray p = advanceCounters (afterRender cart gray p) := by
  have outside := mt (onVisible_iff p 1 256).mpr (Bool.eq_false_iff.mp h)
  rw [ppuTickOf_eq, afterCompose, onlyIf_neg outside, afterBlank, onlyIf_neg notBlank]

/-- The status bits after step 1: cleared at (-1, 1), and where evaluation runs with its overflow (R342, R360). -/
theorem afterRender_status : (afterRender cart gray p).status =
    if p.scanline = -1 ∧ p.cycle = 1 then
      { verticalBlank := false, spriteZeroHit := false, spriteOverflow := false }
    else if p.onVisible 257 257 then (spriteEvaluation p.scanline p).status
    else p.status := by
  have render := congrArg (·.2.2.2) (afterRender_sprites cart gray p)
  refine render.trans ?_
  split; · rfl
  split; · rfl
  split; · rfl
  split
  · exact shiftSprites_status _ p
  · rfl

/-- The NMI request after a tick (R370). -/
theorem ppuTickOf_nmiRequest : (ppuTickOf cart gray p).nmiRequest =
    if p.scanline = 241 ∧ p.cycle = 1 then p.nmiRequest || p.ctrl.getLsbD 7 else p.nmiRequest := by
  have render := congrArg (fun q => q.nmiRequest) (afterRender_frame cart gray p)
  by_cases blank : p.scanline = 241 ∧ p.cycle = 1
  · rw [if_pos blank, ppuTickOf_blank cart gray p blank, advanceCounters_nmiRequest]
    rfl
  rw [if_neg blank]
  cases drawing : p.onVisible 1 256
  · rw [ppuTickOf_other cart gray p blank drawing, advanceCounters_nmiRequest]
    exact render
  · rw [ppuTickOf_drawing cart gray p drawing, advanceCounters_nmiRequest]
    exact render

/-- The sprite buffer after a tick, by position. -/
theorem ppuTickOf_buffer : (ppuTickOf cart gray p).spr =
    if p.scanline = -1 ∧ p.cycle = 1 then (clearAtPreRender p).spr
    else if p.onVisible 257 257 then (spriteEvaluation p.scanline p).spr
    else if p.onVisible 340 340 then (spriteFetch cart gray p.scanline p).spr
    else if p.inFetchWindow then (shiftSprites p.cycle p).spr
    else p.spr := by
  refine (ppuTickOf_spr cart gray p).1.trans ((congrArg (·.1) (afterRender_sprites cart gray p)).trans ?_)
  split; · rfl
  split; · rfl
  split; · rfl
  split <;> rfl

/-- The hit bit that the pixel of a position registers (R366). -/
def registersHit (cy : Nat) (r : Ppu) : Bool := spriteZeroHits r (backgroundPixel r) (spritePixel r) cy

theorem composePixel_status (row cy : Nat) (r : Ppu) : (composePixel cart gray row cy r).status =
    { r.status with spriteZeroHit := r.status.spriteZeroHit || registersHit cy r } := rfl

/-- The status bits after a tick, by position. Where a pixel is drawn, neither the clear nor evaluation runs. -/
theorem ppuTickOf_status : (ppuTickOf cart gray p).status =
    if p.scanline = 241 ∧ p.cycle = 1 then { p.status with verticalBlank := true }
    else if p.onVisible 1 256 then
      { p.status with
        spriteZeroHit := p.status.spriteZeroHit || registersHit p.cycle (afterRender cart gray p) }
    else (afterRender cart gray p).status := by
  by_cases blank : p.scanline = 241 ∧ p.cycle = 1
  · rw [if_pos blank, ppuTickOf_blank cart gray p blank, advanceCounters_status]
    rfl
  rw [if_neg blank]
  cases drawing : p.onVisible 1 256
  · rw [ppuTickOf_other cart gray p blank drawing, advanceCounters_status]
    rfl
  · have inside := (onVisible_iff p 1 256).mp drawing
    have noEvaluation := mt (onVisible_iff p 257 257).mp (by omega)
    rw [ppuTickOf_drawing cart gray p drawing, advanceCounters_status, composePixel_status, afterRender_status,
      if_neg (by omega), if_neg noEvaluation]
    rfl

end tick

/-! ## Patterns that no fetch has loaded -/

/-- Every record's pattern bytes are 0. -/
def PatternsClear (l : List Sprite) : Prop := ∀ r ∈ l, r.patLo = 0 ∧ r.patHi = 0

theorem shiftSprite_patterns {s : Sprite} (h : s.patLo = 0 ∧ s.patHi = 0) :
    (shiftSprite s).patLo = 0 ∧ (shiftSprite s).patHi = 0 := by
  unfold shiftSprite
  split
  · exact h
  · simp [h]

theorem shiftSprites_patternsClear (cy : Nat) {p : Ppu} (h : PatternsClear p.spr) :
    PatternsClear (shiftSprites cy p).spr := by
  unfold shiftSprites
  split
  · intro r hr
    rcases List.mem_append.mp hr with active | rest
    · obtain ⟨s, hs, rfl⟩ := List.mem_map.mp active
      exact shiftSprite_patterns (h s (List.mem_of_mem_take hs))
    · exact h r (List.mem_of_mem_drop rest)
  · exact h

theorem spriteEvaluation_patternsClear (sl : Int) (p : Ppu) : PatternsClear (spriteEvaluation sl p).spr := by
  intro r hr
  rcases List.mem_append.mp hr with latched | rest
  · obtain ⟨e, -, rfl⟩ := List.mem_map.mp latched
    exact ⟨rfl, rfl⟩
  · rw [List.eq_of_mem_replicate rest]
    exact ⟨rfl, rfl⟩

/-- Clear patterns stay clear but for the loads of cycle 340 (R342, R345, R360, R364). -/
theorem ppuTickOf_patternsClear (cart : Option Cartridge) (gray : BitVec 6) {p : Ppu} (h : PatternsClear p.spr)
    (noFetch : p.onVisible 340 340 = false) : PatternsClear (ppuTickOf cart gray p).spr := by
  rw [ppuTickOf_buffer]
  split
  · intro r hr
    obtain ⟨s, -, rfl⟩ := List.mem_map.mp hr
    exact ⟨rfl, rfl⟩
  split; · exact spriteEvaluation_patternsClear _ p
  split; · rename_i fetch; rw [noFetch] at fetch; cases fetch
  split
  · exact shiftSprites_patternsClear _ h
  · exact h

/-- Clear patterns show no pixel (R365). -/
theorem firstOpaque_of_clear {l : List Sprite} (h : PatternsClear l) (i : Nat) : (firstOpaque i l).px = 0 := by
  induction l generalizing i with
  | nil => rfl
  | cons s l ih =>
    obtain ⟨lo, hi⟩ := h s (by simp)
    have transparent : twoBits (s.patHi.getLsbD 7) (s.patLo.getLsbD 7) = 0 := by rw [lo, hi]; rfl
    rw [firstOpaque, if_neg (fun shows => shows.2 transparent)]
    exact ih (fun r hr => h r (by simp [hr])) (i + 1)

theorem spritePixel_of_clear {p : Ppu} (h : PatternsClear p.spr) : (spritePixel p).px = 0 := by
  unfold spritePixel
  split
  · exact firstOpaque_of_clear (fun r hr => h r (List.mem_of_mem_take hr)) 0
  · rfl

/-- Settles O50, clause by clause. -/
theorem verticalBlankIsSetAndCleared : Obligations.VerticalBlankIsSetAndCleared := by
  intro cart gray p q blank clear
  have status : q.status = _ := ppuTickOf_status cart gray p
  have render := afterRender_status cart gray p
  have request : q.nmiRequest = _ := ppuTickOf_nmiRequest cart gray p
  have notDrawing (c : clear) : p.onVisible 1 256 ≠ true := mt (onVisible_iff p 1 256).mp (by omega)
  refine ⟨fun b => ⟨status.trans (if_pos b), request.trans (if_pos b)⟩, fun c => ⟨?cleared, ?patterns⟩,
    fun b => request.trans (if_neg b), fun b c => ?kept, fun c => ?sticky, fun clearPatterns noFetch => ?undrawn⟩
  case cleared => rw [status, if_neg (by omega), if_neg (notDrawing c), render, if_pos c]
  case patterns => exact (ppuTickOf_buffer cart gray p).trans (if_pos c)
  case kept =>
    rw [status, if_neg b, render, if_neg c]
    split; · rfl
    split <;> rfl
  case sticky =>
    rw [status, render, if_neg c]
    split; · exact ⟨id, id⟩
    split; · exact ⟨id, fun hit => by simp [hit]⟩
    split
    · exact ⟨fun overflow => by simp [spriteEvaluation, overflow], id⟩
    · exact ⟨id, id⟩
  case undrawn =>
    have stays := ppuTickOf_patternsClear cart gray clearPatterns noFetch
    exact ⟨stays, spritePixel_of_clear stays⟩

end Sys2Proof.Machine
end

section
/-! SUPPORT. The sprite evaluation against the loop of the rule (R360). -/

namespace Sys2Proof.Machine

/-- The buffer for a list of qualifying OAM entries: the first eight of them, then empty records (R360). -/
def latched (p : Ppu) (q : List Nat) : List Sprite :=
  (q.take 8).map (oamSprite p) ++ List.replicate (8 - min q.length 8) Sprite.empty

/-- The PPU when the loop of R360 has found these entries. -/
def withLatched (p : Ppu) (q : List Nat) : Ppu := { p with spr := latched p q, zeroPossible := decide (0 ∈ q) }

/-- One more entry goes to the first empty record. -/
theorem latched_append (p : Ppu) {q : List Nat} (room : q.length < 8) (e : Nat) :
    (latched p q).set q.length (oamSprite p e) = latched p (q ++ [e]) := by
  obtain ⟨k, hk⟩ : ∃ k, 8 - q.length = k + 1 := ⟨7 - q.length, by omega⟩
  have before : q.take 8 = q := List.take_of_length_le (by omega)
  have after : (q ++ [e]).take 8 = q ++ [e] := List.take_of_length_le (by simp; omega)
  have size : min (q ++ [e]).length 8 = q.length + 1 := by simp; omega
  rw [latched, latched, before, after, size, Nat.min_eq_left (by omega), show 8 - (q.length + 1) = k by omega, hk,
    List.replicate_succ, List.set_append_right _ _ (by simp)]
  simp

/-- Beyond eight, one more entry latches nothing. -/
theorem latched_append_full (p : Ppu) {q : List Nat} (full : 8 ≤ q.length) (e : Nat) :
    latched p (q ++ [e]) = latched p q := by
  rw [latched, latched, List.take_append_of_le_length full, List.length_append, Nat.min_eq_right (by simp; omega),
    Nat.min_eq_right full]

theorem spriteInRange_iff (p : Ppu) (sl : Int) (e : Nat) : spriteInRange p sl e = true ↔
    0 ≤ sl - (p.oam.read (4 * e)).toNat ∧ sl - (p.oam.read (4 * e)).toNat < if p.ctrl.getLsbD 5 then 16 else 8 := by
  unfold spriteInRange spriteHeight
  exact (Bool.and_eq_true _ _).to_iff.trans (and_congr decide_eq_true_iff decide_eq_true_iff)

/-- A turn passes over an entry that does not qualify. -/
theorem evaluationTurn_skip {sl : Int} {p : Ppu} {e : Nat} (h : spriteInRange p sl e = false) (q : List Nat) :
    evaluationTurn sl (q.length, withLatched p q) e = (q.length, withLatched p q) :=
  if_neg (mt (spriteInRange_iff p sl e).mpr (by simp [h]))

theorem withLatched_append (p : Ppu) {q : List Nat} (room : q.length < 8) (e : Nat) : withLatched p (q ++ [e]) =
    { p with spr := (latched p q).set q.length (oamSprite p e), zeroPossible := decide (0 ∈ q) || decide (e = 0) } := by
  have zero : decide (0 ∈ q ++ [e]) = (decide (0 ∈ q) || decide (e = 0)) := by simp [eq_comm]
  rw [withLatched, latched_append p room, zero]

/-- Beyond eight entries neither the buffer nor the flag changes: entry 0 comes first. -/
theorem withLatched_append_full (p : Ppu) {q : List Nat} (full : 8 ≤ q.length) {e : Nat} (first : q.length ≤ e) :
    withLatched p (q ++ [e]) = withLatched p q := by
  have zero : decide (0 ∈ q ++ [e]) = decide (0 ∈ q) := by
    have : ¬0 = e := by omega
    simp [this]
  rw [withLatched, latched_append_full p full, zero, withLatched]

/-- A turn takes an entry that qualifies: it latches it while there is room, and counts it in any case. -/
theorem evaluationTurn_take {sl : Int} {p : Ppu} {e : Nat} (h : spriteInRange p sl e = true) {q : List Nat}
    (first : q.length ≤ e) :
    evaluationTurn sl (q.length, withLatched p q) e = ((q ++ [e]).length, withLatched p (q ++ [e])) := by
  have qualifies := (spriteInRange_iff p sl e).mp h
  rw [List.length_append]
  by_cases room : q.length < 8
  · rw [withLatched_append p room]
    exact (if_pos qualifies).trans (if_pos room)
  · rw [withLatched_append_full p (by omega) first]
    exact (if_pos qualifies).trans (if_neg room)

/-- The loop of R360 over the first `n` OAM entries finds those of them that qualify. -/
theorem foldl_evaluationTurn (sl : Int) (p : Ppu) (n : Nat) :
    (List.range n).foldl (evaluationTurn sl) (0, withLatched p []) =
      (((List.range n).filter (spriteInRange p sl)).length,
        withLatched p ((List.range n).filter (spriteInRange p sl))) := by
  induction n with
  | zero => rfl
  | succ n ih =>
    rw [List.range_succ, List.foldl_append, ih, List.filter_append, List.foldl_cons, List.foldl_nil]
    cases h : spriteInRange p sl n
    · rw [evaluationTurn_skip h, List.filter_cons_of_neg (by simp [h]), List.filter_nil, List.append_nil]
    · have first : ((List.range n).filter (spriteInRange p sl)).length ≤ n :=
        Nat.le_trans (List.length_filter_le _ _) (Nat.le_of_eq List.length_range)
      rw [evaluationTurn_take h first, List.filter_cons_of_pos h, List.filter_nil]

/-- The evaluation of the model is the loop of the rule (R360). -/
theorem spriteEvaluation_eq_loop (sl : Int) (p : Ppu) : spriteEvaluation sl p = evaluationLoop sl p := by
  have loop := foldl_evaluationTurn sl p 64
  have start : withLatched p [] = { p with spr := List.replicate 8 Sprite.empty, zeroPossible := false } := rfl
  rw [start] at loop
  simp only [evaluationLoop, loop]
  rfl

/-- The count and the flag of the sprite buffer after a tick: only evaluation writes them (R361). -/
theorem ppuTickOf_counts (cart : Option Cartridge) (gray : BitVec 6) {p : Ppu} (h : p.onVisible 257 257 = false) :
    (ppuTickOf cart gray p).sprCount = p.sprCount ∧ (ppuTickOf cart gray p).zeroPossible = p.zeroPossible := by
  obtain ⟨-, count, zero⟩ := ppuTickOf_spr cart gray p
  have render := congrArg (fun r => (r.2.1, r.2.2.1)) (afterRender_sprites cart gray p)
  have kept : ((afterRender cart gray p).sprCount, (afterRender cart gray p).zeroPossible) =
      (p.sprCount, p.zeroPossible) := by
    refine render.trans ?_
    rw [if_neg (c := p.onVisible 257 257 = true) (by simp [h])]
    split; · rfl
    split; · rfl
    split
    · unfold shiftSprites
      split <;> rfl
    · rfl
  exact ⟨count.trans (congrArg (·.1) kept), zero.trans (congrArg (·.2) kept)⟩

/-- Settles O52: the two evaluations agree, and of all parts of a tick only evaluation writes the count, the flag and, upwards, the
overflow. -/
theorem spriteEvaluationIsTheLoop : Obligations.SpriteEvaluationIsTheLoop := by
  refine ⟨fun sl p => ⟨spriteEvaluation_eq_loop sl p, (spriteEvaluation_spritesOk sl p).2⟩, ?_⟩
  intro cart gray p q e
  have status : q.status = _ := ppuTickOf_status cart gray p
  rw [afterRender_status] at status
  refine ⟨fun h => ?_, fun h => ?_⟩
  · have inside := (onVisible_iff p 257 257).mp h
    have noDrawing := mt (onVisible_iff p 1 256).mp (by omega)
    rw [if_neg (by omega), if_neg noDrawing, if_neg (by omega), if_pos h] at status
    have render := (afterRender_sprites cart gray p).trans ((if_neg (by omega)).trans (if_pos h))
    obtain ⟨spr, count, zero⟩ := ppuTickOf_spr cart gray p
    rw [spriteEvaluation_eq_loop] at status render
    exact ⟨spr.trans (congrArg (·.1) render), count.trans (congrArg (·.2.1) render),
      zero.trans (congrArg (·.2.2.1) render), status⟩
  · obtain ⟨count, zero⟩ := ppuTickOf_counts cart gray h
    refine ⟨count, zero, fun overflow => ?_⟩
    rw [status, if_neg (Bool.eq_false_iff.mp h)] at overflow
    split at overflow; · exact overflow
    split at overflow; · exact overflow
    split at overflow
    · cases overflow
    · exact overflow

end Sys2Proof.Machine
end

section
/-! SUPPORT. The pattern bytes of the buffered sprites: their addresses as numbers (R362, R363), their load (R364), and the counters
and shifts of each record (R345). -/

namespace Sys2Proof.Machine

/-! ## Addresses -/

/-- The fields of a pattern address do not overlap: table, tile and row add up. -/
theorem patternFields_eq (table : Bool) (tile : Byte) {row : Nat} (h : row < 16) :
    ((if table then 0x1000 else 0 : Nat) : Addr) ||| (tile.setWidth 16 <<< 4) ||| BitVec.ofNat 16 row =
      BitVec.ofNat 16 (table.toNat * 0x1000 + tile.toNat * 16 + row) := by
  have small := tile.isLt
  have shifted : (tile.setWidth 16 <<< 4 : Addr).toNat = tile.toNat * 16 := by
    rw [BitVec.toNat_shiftLeft, BitVec.toNat_setWidth_of_le (by decide), Nat.shiftLeft_eq]
    omega
  have high : ((if table then 0x1000 else 0 : Nat) : Addr).toNat = 2 ^ 12 * table.toNat := by cases table <;> rfl
  have bit : table.toNat ≤ 1 := Bool.toNat_le table
  apply BitVec.eq_of_toNat_eq
  rw [BitVec.toNat_or, BitVec.toNat_or, high, shifted, BitVec.toNat_ofNat, BitVec.toNat_ofNat,
    Nat.mod_eq_of_lt (by omega), ← Nat.two_pow_add_eq_or_of_lt (by omega),
    show 2 ^ 12 * table.toNat + tile.toNat * 16 = 2 ^ 4 * (256 * table.toNat + tile.toNat) by omega,
    ← Nat.two_pow_add_eq_or_of_lt h]
  omega

/-- An 8x8 sprite's address (R362). -/
theorem spriteAddress_small {p : Ppu} (small : p.ctrl.getLsbD 5 = false) {s : Sprite} {sl : Int} {d : Nat}
    (line : sl - s.y.toNat = d) (range : d ≤ 7) :
    spriteAddress p sl s = some (BitVec.ofNat 16 ((p.ctrl.getLsbD 3).toNat * 0x1000 + s.id.toNat * 16 +
      if s.attr.getLsbD 7 then 7 - d % 8 else d % 8)) := by
  have row : d % 8 = d := Nat.mod_eq_of_lt (by omega)
  unfold spriteAddress
  simp only [small, line, row, Int.toNat_natCast, Bool.false_eq_true, if_false]
  cases s.attr.getLsbD 7
  · rw [if_neg (by simp), if_pos (by omega), patternFields_eq _ _ (by omega)]
    rfl
  · rw [if_pos rfl, if_pos (by omega), patternFields_eq _ _ (by omega)]
    rfl

/-- The tile of an 8x16 sprite's pair (R363): for the half `low` of the sprite (its first eight lines), flipped or not. -/
theorem pairTile_toNat (id : Byte) (low flip : Bool) :
    (if low != flip then id &&& 0xFE else (id &&& 0xFE) + 1).toNat =
      if low = flip then id.toNat / 2 * 2 + 1 else id.toNat / 2 * 2 := by
  have upper : (id &&& 0xFE).toNat = id.toNat / 2 * 2 := by revert id; decide
  have lower : ((id &&& 0xFE) + 1).toNat = id.toNat / 2 * 2 + 1 := by revert id; decide
  cases low <;> cases flip <;> assumption

/-- An 8x16 sprite's address (R363). -/
theorem spriteAddress_tall {p : Ppu} (tall : p.ctrl.getLsbD 5 = true) {s : Sprite} {sl : Int} {d : Nat}
    (line : sl - s.y.toNat = d) (range : d ≤ 15) :
    spriteAddress p sl s = some (BitVec.ofNat 16 (s.id.toNat % 2 * 0x1000 +
      (if decide (d < 8) = s.attr.getLsbD 7 then s.id.toNat / 2 * 2 + 1 else s.id.toNat / 2 * 2) * 16 +
      if s.attr.getLsbD 7 then 7 - d % 8 else d % 8)) := by
  have table : s.id.getLsbD 0 = decide (s.id.toNat % 2 = 1) := by
    rw [BitVec.getLsbD, Nat.testBit_zero]
  have bit : (decide (s.id.toNat % 2 = 1)).toNat = s.id.toNat % 2 := by
    rcases Nat.mod_two_eq_zero_or_one s.id.toNat with h | h <;> rw [h] <;> rfl
  have below : ((d : Int) < 8) ↔ d < 8 := by omega
  unfold spriteAddress
  simp only [tall, line, Int.toNat_natCast, if_true, below]
  rw [if_pos (by omega), table, patternFields_eq _ _ (by split <;> omega), bit, pairTile_toNat]

/-! ## The buffer after a tick -/

/-- A pattern load changes the two pattern bytes only (R364). -/
theorem loadSprite_eq (cart : Option Cartridge) (gray : BitVec 6) (p : Ppu) (sl : Int) (n : Nat) (s : Sprite) :
    loadSprite cart gray p sl n s =
      { s with patLo := (loadSprite cart gray p sl n s).patLo, patHi := (loadSprite cart gray p sl n s).patHi } := by
  unfold loadSprite
  dsimp only
  split <;> rfl

/-- Each record is loaded on its own. -/
theorem loadSprites_getElem? (cart : Option Cartridge) (gray : BitVec 6) (p : Ppu) (sl : Int) (n : Nat) (l : List Sprite)
    (i : Nat) : (loadSprites cart gray p sl n l)[i]? = l[i]?.map (loadSprite cart gray p sl (n + 2 * i)) := by
  induction l generalizing n i with
  | nil => rfl
  | cons s l ih =>
    cases i with
    | zero => rfl
    | succ i =>
      rw [loadSprites, List.getElem?_cons_succ, List.getElem?_cons_succ, ih, Nat.mul_succ]
      congr 2
      omega

/-- The bits of the loaded bytes: in order, or from the other end when the sprite is flipped (R364). -/
theorem loadSprite_getLsbD {cart : Option Cartridge} {gray : BitVec 6} {p : Ppu} {sl : Int} {s : Sprite} {a : Addr}
    (address : spriteAddress p sl s = some a) (n : Nat) {k : Nat} (hk : k < 8) :
    let j := if s.attr.getLsbD 6 then 7 - k else k
    (loadSprite cart gray p sl n s).patLo.getLsbD k = (ppuRead cart gray p a).getLsbD j ∧
    (loadSprite cart gray p sl n s).patHi.getLsbD k = (ppuRead cart gray p (a + 8)).getLsbD j := by
  have reversed (b : Byte) : (bitReverse8 b).getLsbD k = b.getLsbD (7 - k) := by
    rw [bitReverse8, BitVec.getLsbD_reverse, BitVec.getMsbD_eq_getLsbD]
    simp [hk]
  unfold loadSprite spriteBytes
  rw [address]
  cases s.attr.getLsbD 6
  · exact ⟨rfl, rfl⟩
  · exact ⟨reversed _, reversed _⟩

/-- A list whose first `n` records are replaced, at a place of the old list. -/
theorem getElem?_replaced {l l' : List Sprite} {n i : Nat} {r : Sprite} (length : l'.length = min n l.length)
    (place : l[i]? = some r) : (l' ++ l.drop n)[i]? = if i < n then l'[i]? else some r := by
  have inside : i < l.length := (List.getElem?_eq_some_iff.mp place).1
  by_cases replaced : i < n
  · rw [if_pos replaced, List.getElem?_append_left (by omega)]
  · rw [if_neg replaced, List.getElem?_append_right (by omega), List.getElem?_drop, ← place]
    congr 1
    omega

theorem spriteFetch_getElem? (cart : Option Cartridge) (gray : BitVec 6) (sl : Int) {p : Ppu} {i : Nat} {r : Sprite}
    (place : p.spr[i]? = some r) : (spriteFetch cart gray sl p).spr[i]? =
      some (if i < p.sprCount then loadSprite cart gray p sl (p.freeCount + 2 * i) r else r) := by
  have length := loadSprites_length cart gray p sl p.freeCount (p.spr.take p.sprCount)
  rw [List.length_take] at length
  refine (getElem?_replaced length place).trans ?_
  by_cases active : i < p.sprCount
  · rw [if_pos active, if_pos active, loadSprites_getElem?, List.getElem?_take_of_lt active, place, Option.map_some]
  · rw [if_neg active, if_neg active]

theorem shiftSprites_getElem? (cy : Nat) {p : Ppu} {i : Nat} {r : Sprite} (place : p.spr[i]? = some r) :
    (shiftSprites cy p).spr[i]? =
      some (if (p.mask.getLsbD 4 = true ∧ 1 ≤ cy ∧ cy ≤ 257) ∧ i < p.sprCount then shiftSprite r else r) := by
  have length : ((p.spr.take p.sprCount).map shiftSprite).length = min p.sprCount p.spr.length := by simp
  unfold shiftSprites
  by_cases shifts : p.mask.getLsbD 4 = true ∧ 1 ≤ cy ∧ cy ≤ 257
  · rw [if_pos shifts]
    refine (getElem?_replaced length place).trans ?_
    by_cases active : i < p.sprCount
    · rw [if_pos active, if_pos ⟨shifts, active⟩, List.getElem?_map, List.getElem?_take_of_lt active, place,
        Option.map_some]
    · rw [if_neg active, if_neg (fun h => active h.2)]
  · rw [if_neg shifts, if_neg (fun h => shifts h.1), place]

/-- A record's counter and shifts as numbers (R345). -/
theorem shiftSprite_eq (r : Sprite) : shiftSprite r =
    if r.x = 0 then
      { r with patLo := BitVec.ofNat 8 (2 * r.patLo.toNat), patHi := BitVec.ofNat 8 (2 * r.patHi.toNat) }
    else { r with x := BitVec.ofNat 8 (r.x.toNat - 1) } := by
  have double (b : Byte) : b <<< 1 = BitVec.ofNat 8 (2 * b.toNat) := by
    apply BitVec.eq_of_toNat_eq
    rw [BitVec.toNat_shiftLeft, Nat.shiftLeft_eq, BitVec.toNat_ofNat, Nat.mul_comm, Nat.pow_one]
  unfold shiftSprite
  by_cases zero : r.x = 0
  · rw [if_neg (by simp [zero]), if_pos zero, double, double]
  · have down : r.x - 1 = BitVec.ofNat 8 (r.x.toNat - 1) := by bv_omega
    rw [if_pos (by bv_omega), if_neg zero, down]

/-- Settles O53: the two address forms, then the record at place `i` after the load, after a shift, and elsewhere. -/
theorem spritePatternAddresses : Obligations.SpritePatternAddresses := by
  refine ⟨fun p s sl d line =>
    ⟨fun small range => spriteAddress_small small line range, fun tall range => spriteAddress_tall tall line range⟩, ?_⟩
  intro cart gray p i r place q
  have buffer : q.spr = _ := ppuTickOf_buffer cart gray p
  refine ⟨fun fetch => ?_, fun notClear notEvaluation notFetch => ?_⟩
  · have inside := (onVisible_iff p 340 340).mp fetch
    have notEvaluation := mt (onVisible_iff p 257 257).mp (by omega)
    rw [if_neg (by omega), if_neg notEvaluation, if_pos fetch] at buffer
    have record : q.spr[i]? = _ := (congrArg (·[i]?) buffer).trans (spriteFetch_getElem? cart gray p.scanline place)
    by_cases active : i < p.sprCount
    · rw [if_pos active, loadSprite_eq] at record
      exact ⟨_, _, record, fun inactive => absurd active (by omega),
        fun _ a address k hk => loadSprite_getLsbD address _ hk⟩
    · rw [if_neg active] at record
      exact ⟨r.patLo, r.patHi, record, fun _ => ⟨rfl, rfl⟩, fun h => absurd h active⟩
  · rw [if_neg notClear, if_neg (Bool.eq_false_iff.mp notEvaluation), if_neg (Bool.eq_false_iff.mp notFetch)] at buffer
    have window := inFetchWindow_iff p
    by_cases inWindow : p.inFetchWindow = true
    · rw [if_pos inWindow] at buffer
      have shifts : ((p.mask.getLsbD 4 = true ∧ 1 ≤ p.cycle ∧ p.cycle ≤ 257) ∧ i < p.sprCount) ↔
          (p.inFetchWindow = true ∧ p.cycle ≤ 257 ∧ p.mask.getLsbD 4 = true ∧ i < p.sprCount) := by
        have := window.mp inWindow
        constructor
        · rintro ⟨⟨on, -, last⟩, active⟩
          exact ⟨inWindow, last, on, active⟩
        · rintro ⟨-, last, on, active⟩
          exact ⟨⟨on, by omega, last⟩, active⟩
      rw [buffer, shiftSprites_getElem? p.cycle place, shiftSprite_eq]
      simp only [shifts]
    · rw [if_neg inWindow] at buffer
      rw [buffer, if_neg (fun h => inWindow h.1)]
      exact place

end Sys2Proof.Machine
end

section
/-! SUPPORT. The scroll register as five fields (R37): what each increment and transfer puts in them (R352 to R355), and the ticks
that make them (R340, R343). -/

namespace Sys2Proof.Machine

/-! ## The fields -/

/-- The scroll register of five fields given as numbers (R37). -/
def scroll (cx cy nx ny fy : Nat) : BitVec 15 := BitVec.ofNat 15 (cx + 32 * cy + 1024 * nx + 2048 * ny + 4096 * fy)

theorem nametableX_toNat (v : BitVec 15) : (nametableX v).toNat = v.toNat / 1024 % 2 := by
  rw [nametableX, BitVec.getLsbD, Nat.toNat_testBit]

theorem nametableY_toNat (v : BitVec 15) : (nametableY v).toNat = v.toNat / 2048 % 2 := by
  rw [nametableY, BitVec.getLsbD, Nat.toNat_testBit]

/-- The fields are the whole register. -/
theorem scroll_fields (v : BitVec 15) :
    v = scroll (coarseX v).toNat (coarseY v).toNat (nametableX v).toNat (nametableY v).toNat (fineY v).toNat := by
  have := v.isLt
  apply BitVec.eq_of_toNat_eq
  rw [scroll, coarseX_toNat, coarseY_toNat, nametableX_toNat, nametableY_toNat, fineY_toNat, BitVec.toNat_ofNat]
  omega

/-- The five fields of the scroll register. -/
def scrollFields (v : BitVec 15) := (coarseX v, coarseY v, nametableX v, nametableY v, fineY v)

/-- A register has the fields its bits spell. -/
theorem scrollFields_of_bits {v : BitVec 15} {cx cy : BitVec 5} {nx ny : Bool} {fy : BitVec 3}
    (bits : ∀ k < 15, v.getLsbD k = if k < 5 then cx.getLsbD k else if k < 10 then cy.getLsbD (k - 5)
      else if k = 10 then nx else if k = 11 then ny else fy.getLsbD (k - 12)) :
    scrollFields v = (cx, cy, nx, ny, fy) := by
  have x : coarseX v = cx := BitVec.eq_of_getLsbD_eq fun i hi => by
    rw [coarseX, BitVec.getLsbD_extractLsb', decide_eq_true hi, bits _ (by omega), if_pos (by omega)]
    simp
  have y : coarseY v = cy := BitVec.eq_of_getLsbD_eq fun i hi => by
    rw [coarseY, BitVec.getLsbD_extractLsb', decide_eq_true hi, bits _ (by omega), if_neg (by omega), if_pos (by omega)]
    simp
  have fine : fineY v = fy := BitVec.eq_of_getLsbD_eq fun i hi => by
    rw [fineY, BitVec.getLsbD_extractLsb', decide_eq_true hi, bits _ (by omega), if_neg (by omega), if_neg (by omega),
      if_neg (by omega), if_neg (by omega)]
    simp
  rw [scrollFields, x, y, fine, show nametableX v = nx from bits 10 (by decide),
    show nametableY v = ny from bits 11 (by decide)]

/-- The bits of a register, field by field. -/
theorem getLsbD_scrollFields (v : BitVec 15) {k : Nat} (hk : k < 15) :
    v.getLsbD k = if k < 5 then (coarseX v).getLsbD k else if k < 10 then (coarseY v).getLsbD (k - 5)
      else if k = 10 then nametableX v else if k = 11 then nametableY v else (fineY v).getLsbD (k - 12) := by
  simp only [coarseX, coarseY, fineY, BitVec.getLsbD_extractLsb', nametableX, nametableY]
  split
  · simp [*]
  split
  · rw [decide_eq_true (by omega), Bool.true_and, Nat.add_sub_cancel' (by omega)]
  split
  · simp [*]
  split
  · simp [*]
  · rw [decide_eq_true (by omega), Bool.true_and, Nat.add_sub_cancel' (by omega)]

section changes
variable {v : BitVec 15} {cx cy : BitVec 5} {nx ny : Bool} {fy : BitVec 3} (h : scrollFields v = (cx, cy, nx, ny, fy))
include h

theorem scrollFields_withCoarseX (f : BitVec 5) : scrollFields (withCoarseX v f) = (f, cy, nx, ny, fy) := by
  cases h
  refine scrollFields_of_bits fun k hk => ?_
  rw [withCoarseX_getLsbD v f hk, getLsbD_scrollFields v hk]
  split <;> rfl

theorem scrollFields_withCoarseY (f : BitVec 5) : scrollFields (withCoarseY v f) = (cx, f, nx, ny, fy) := by
  cases h
  refine scrollFields_of_bits fun k hk => ?_
  rw [withCoarseY_getLsbD v f hk, getLsbD_scrollFields v hk]
  grind

theorem scrollFields_withFineY (f : BitVec 3) : scrollFields (withFineY v f) = (cx, cy, nx, ny, f) := by
  cases h
  refine scrollFields_of_bits fun k hk => ?_
  rw [withFineY_getLsbD v f hk, getLsbD_scrollFields v hk]
  grind

theorem scrollFields_toggleNametableX : scrollFields (toggleNametableX v) = (cx, cy, !nx, ny, fy) := by
  cases h
  refine scrollFields_of_bits fun k hk => ?_
  have bit : ∀ j < 15, (0x0400 : BitVec 15).getLsbD j = decide (j = 10) := by decide
  rw [toggleNametableX, BitVec.getLsbD_xor, bit k hk, getLsbD_scrollFields v hk]
  grind

theorem scrollFields_toggleNametableY : scrollFields (toggleNametableY v) = (cx, cy, nx, !ny, fy) := by
  cases h
  refine scrollFields_of_bits fun k hk => ?_
  have bit : ∀ j < 15, (0x0800 : BitVec 15).getLsbD j = decide (j = 11) := by decide
  rw [toggleNametableY, BitVec.getLsbD_xor, bit k hk, getLsbD_scrollFields v hk]
  grind

/-- The register as the sum of its fields' places. -/
theorem eq_scroll : v = scroll cx.toNat cy.toNat nx.toNat ny.toNat fy.toNat := by
  cases h
  exact scroll_fields v

end changes

/-- The bits of `t` under a mask, the others of `v`. -/
theorem getLsbD_merge (v t m : BitVec 15) {k : Nat} (hk : k < 15) :
    ((v &&& ~~~m) ||| (t &&& m)).getLsbD k = if m.getLsbD k then t.getLsbD k else v.getLsbD k := by
  rw [BitVec.getLsbD_or, BitVec.getLsbD_and, BitVec.getLsbD_and, BitVec.getLsbD_not, decide_eq_true hk]
  cases m.getLsbD k <;> simp

/-- The bits that TransferX copies are coarse X and the horizontal nametable (R354). -/
theorem scrollFields_mergeX (v t : BitVec 15) : scrollFields ((v &&& ~~~0x041F#15) ||| (t &&& 0x041F)) =
    (coarseX t, coarseY v, nametableX t, nametableY v, fineY v) :=
  scrollFields_of_bits fun k hk => by
    have bit : ∀ j < 15, (0x041F#15).getLsbD j = decide (j < 5 ∨ j = 10) := by decide
    refine (getLsbD_merge v t 0x041F#15 hk).trans ?_
    rw [bit k hk, getLsbD_scrollFields v hk, getLsbD_scrollFields t hk]
    grind

/-- The bits that TransferY copies are fine Y, coarse Y and the vertical nametable (R355). -/
theorem scrollFields_mergeY (v t : BitVec 15) : scrollFields ((v &&& ~~~0x7BE0#15) ||| (t &&& 0x7BE0)) =
    (coarseX v, coarseY t, nametableX v, nametableY t, fineY t) :=
  scrollFields_of_bits fun k hk => by
    have bit : ∀ j < 15, (0x7BE0#15).getLsbD j = decide ((5 ≤ j ∧ j < 10) ∨ 11 ≤ j) := by decide
    refine (getLsbD_merge v t 0x7BE0#15 hk).trans ?_
    rw [bit k hk, getLsbD_scrollFields v hk, getLsbD_scrollFields t hk]
    grind

/-! ## The steps as numbers -/

theorem not_toNat (b : Bool) : (!b).toNat = 1 - b.toNat := by cases b <;> rfl

theorem renderingEnabled_iff (p : Ppu) :
    renderingEnabled p = true ↔ p.mask.getLsbD 3 = true ∨ p.mask.getLsbD 4 = true := Bool.or_eq_true _ _ ▸ Iff.rfl

section on
variable {p : Ppu} (on : renderingEnabled p = true)
include on

theorem incrementScrollX_on : incrementScrollX p = { p with
    v := if p.v.toNat % 32 = 31 then
        scroll 0 (p.v.toNat / 32 % 32) (1 - p.v.toNat / 1024 % 2) (p.v.toNat / 2048 % 2) (p.v.toNat / 4096)
      else
        scroll (p.v.toNat % 32 + 1) (p.v.toNat / 32 % 32) (p.v.toNat / 1024 % 2) (p.v.toNat / 2048 % 2)
          (p.v.toNat / 4096) } := by
  have wraps : coarseX p.v = 31 ↔ (coarseX p.v).toNat = 31 := BitVec.toNat_inj.symm
  rw [incrementScrollX, if_pos on, ← coarseX_toNat, ← coarseY_toNat, ← nametableX_toNat, ← nametableY_toNat,
    ← fineY_toNat]
  refine congrArg (fun v => { p with v := v }) ?_
  by_cases wrap : coarseX p.v = 31
  · rw [if_pos wrap, if_pos (wraps.mp wrap), eq_scroll (scrollFields_toggleNametableX (scrollFields_withCoarseX rfl 0)),
      not_toNat]
    rfl
  · have next : (coarseX p.v + 1).toNat = (coarseX p.v).toNat + 1 := by bv_omega
    rw [if_neg wrap, if_neg (mt wraps.mpr wrap), eq_scroll (scrollFields_withCoarseX rfl _), next]

theorem incrementScrollY_on : incrementScrollY p = { p with
    v := if p.v.toNat / 4096 < 7 then
        scroll (p.v.toNat % 32) (p.v.toNat / 32 % 32) (p.v.toNat / 1024 % 2) (p.v.toNat / 2048 % 2) (p.v.toNat / 4096 + 1)
      else if p.v.toNat / 32 % 32 = 29 then
        scroll (p.v.toNat % 32) 0 (p.v.toNat / 1024 % 2) (1 - p.v.toNat / 2048 % 2) 0
      else if p.v.toNat / 32 % 32 = 31 then
        scroll (p.v.toNat % 32) 0 (p.v.toNat / 1024 % 2) (p.v.toNat / 2048 % 2) 0
      else
        scroll (p.v.toNat % 32) (p.v.toNat / 32 % 32 + 1) (p.v.toNat / 1024 % 2) (p.v.toNat / 2048 % 2) 0 } := by
  have cleared := scrollFields_withFineY (v := p.v) rfl 0
  have row : coarseY (withFineY p.v 0) = coarseY p.v := congrArg (·.2.1) cleared
  have is29 : coarseY p.v = 29 ↔ (coarseY p.v).toNat = 29 := BitVec.toNat_inj.symm
  have is31 : coarseY p.v = 31 ↔ (coarseY p.v).toNat = 31 := BitVec.toNat_inj.symm
  rw [incrementScrollY, if_pos on, ← coarseX_toNat, ← coarseY_toNat, ← nametableX_toNat, ← nametableY_toNat,
    ← fineY_toNat]
  dsimp only
  rw [row]
  refine congrArg (fun v => { p with v := v }) ?_
  by_cases inside : (fineY p.v).toNat < 7
  · have next : (fineY p.v + 1).toNat = (fineY p.v).toNat + 1 := by bv_omega
    rw [if_pos inside, if_pos inside, eq_scroll (scrollFields_withFineY rfl _), next]
  rw [if_neg inside, if_neg inside]
  by_cases last : coarseY p.v = 29
  · rw [if_pos last, if_pos (is29.mp last),
      eq_scroll (scrollFields_toggleNametableY (scrollFields_withCoarseY cleared 0)), not_toNat]
    rfl
  rw [if_neg last, if_neg (mt is29.mpr last)]
  by_cases outside : coarseY p.v = 31
  · rw [if_pos outside, if_pos (is31.mp outside), eq_scroll (scrollFields_withCoarseY cleared 0)]
    rfl
  · have next : (coarseY p.v + 1).toNat = (coarseY p.v).toNat + 1 := by bv_omega
    rw [if_neg outside, if_neg (mt is31.mpr outside), eq_scroll (scrollFields_withCoarseY cleared _), next]
    rfl

theorem transferX_on : transferX p = { p with
    v := scroll (p.t.toNat % 32) (p.v.toNat / 32 % 32) (p.t.toNat / 1024 % 2) (p.v.toNat / 2048 % 2)
      (p.v.toNat / 4096) } := by
  rw [transferX, if_pos on, eq_scroll (scrollFields_mergeX p.v p.t), coarseX_toNat, coarseY_toNat, nametableX_toNat,
    nametableY_toNat, fineY_toNat]

theorem transferY_on : transferY p = { p with
    v := scroll (p.v.toNat % 32) (p.t.toNat / 32 % 32) (p.v.toNat / 1024 % 2) (p.t.toNat / 2048 % 2)
      (p.t.toNat / 4096) } := by
  rw [transferY, if_pos on, eq_scroll (scrollFields_mergeY p.v p.t), coarseX_toNat, coarseY_toNat, nametableX_toNat,
    nametableY_toNat, fineY_toNat]

end on

/-- With rendering disabled no step moves the scroll (R352 to R355). -/
theorem scrollSteps_off {p : Ppu} (off : ¬renderingEnabled p = true) :
    incrementScrollX p = p ∧ incrementScrollY p = p ∧ transferX p = p ∧ transferY p = p :=
  ⟨if_neg off, if_neg off, if_neg off, if_neg off⟩

/-! ## When a tick makes them -/

/-- What the scroll steps read. -/
def scrollOf (p : Ppu) := (p.v, p.t, p.mask)

/-- The shape of a scroll step: with rendering enabled, `v` becomes a function of `v` and `t`. -/
def scrollStep (next : BitVec 15 → BitVec 15 → BitVec 15) (p : Ppu) : Ppu :=
  if renderingEnabled p then { p with v := next p.v p.t } else p

section schedule
variable {p q : Ppu} (same : scrollOf p = scrollOf q)
include same

theorem scrollStep_congr (next : BitVec 15 → BitVec 15 → BitVec 15) :
    scrollOf (scrollStep next p) = scrollOf (scrollStep next q) := by
  obtain ⟨v, t, mask⟩ := by simpa only [scrollOf, Prod.mk.injEq] using same
  have enabled : renderingEnabled p = renderingEnabled q := by rw [renderingEnabled, renderingEnabled, mask]
  rw [scrollStep, scrollStep, enabled]
  split
  · simp only [scrollOf, v, t, mask]
  · exact same

theorem incrementScrollX_congr : scrollOf (incrementScrollX p) = scrollOf (incrementScrollX q) :=
  scrollStep_congr same fun v _ =>
    if coarseX v = 31 then toggleNametableX (withCoarseX v 0) else withCoarseX v (coarseX v + 1)

theorem incrementScrollY_congr : scrollOf (incrementScrollY p) = scrollOf (incrementScrollY q) :=
  scrollStep_congr same fun v _ =>
    if (fineY v).toNat < 7 then withFineY v (fineY v + 1)
    else
      let v := withFineY v 0
      if coarseY v = 29 then toggleNametableY (withCoarseY v 0)
      else if coarseY v = 31 then withCoarseY v 0
      else withCoarseY v (coarseY v + 1)

theorem transferX_congr : scrollOf (transferX p) = scrollOf (transferX q) :=
  scrollStep_congr same fun v t => (v &&& ~~~0x041F#15) ||| (t &&& 0x041F)

end schedule

section tick
variable (cart : Option Cartridge) (gray : BitVec 6) (sl : Int) (cy : Nat) (p : Ppu)

theorem shiftBackground_scroll : scrollOf (shiftBackground p) = scrollOf p := by unfold shiftBackground; split <;> rfl
theorem shiftSprites_scroll : scrollOf (shiftSprites cy p) = scrollOf p := by unfold shiftSprites; split <;> rfl

/-- Place 7 of the schedule is the only one that moves the scroll (R343). -/
theorem fetchStep_scroll (k : Nat) : scrollOf (fetchStep cart gray k p) =
    if k = 7 then scrollOf (incrementScrollX p) else scrollOf p := by
  unfold fetchStep
  split; · rw [if_neg (by omega)]; rfl
  split; · rw [if_neg (by omega)]; rfl
  split; · rw [if_neg (by omega)]; rfl
  split; · rw [if_neg (by omega)]; rfl
  split <;> rfl

/-- The scroll after step 1b. -/
theorem windowStep_scroll : scrollOf (windowStep cart gray cy p) =
    if (cy - 1) % 8 = 7 then scrollOf (incrementScrollX p) else scrollOf p := by
  have shifted : scrollOf (shiftSprites cy (shiftBackground p)) = scrollOf p :=
    (shiftSprites_scroll cy _).trans (shiftBackground_scroll p)
  rw [windowStep, fetchStep_scroll, incrementScrollX_congr shifted, shifted]

/-- The scroll after steps 1a to 1g, by cycle. -/
theorem renderSteps_scroll : scrollOf (renderSteps cart gray sl cy p) =
    if cy = 256 then scrollOf (incrementScrollY (incrementScrollX p))
    else if cy = 257 then scrollOf (transferX p)
    else if cy % 8 = 0 ∧ ((8 ≤ cy ∧ cy ≤ 248) ∨ cy = 328 ∨ cy = 336) then scrollOf (incrementScrollX p)
    else if sl = -1 ∧ 280 ≤ cy ∧ cy ≤ 304 then scrollOf (transferY p)
    else scrollOf p := by
  rw [renderSteps_eq, onlyIf_keeps scrollOf (spriteFetch cart gray sl) (fun _ => rfl),
    onlyIf_keeps scrollOf (spriteEvaluation sl) (fun _ => rfl), beforeEvaluation]
  by_cases w : (2 ≤ cy ∧ cy ≤ 258) ∨ (321 ≤ cy ∧ cy ≤ 337)
  · rw [onlyIf_pos w, onlyIf_neg (c := sl = -1 ∧ cy = 1) (by omega),
      onlyIf_neg (c := sl = -1 ∧ 280 ≤ cy ∧ cy ≤ 304) (by omega)]
    have window := windowStep_scroll cart gray cy p
    by_cases y : cy = 256
    · rw [if_pos (by omega)] at window
      rw [onlyIf_neg (c := cy = 257) (by omega), onlyIf_pos y, if_pos y]
      exact incrementScrollY_congr window
    rw [if_neg y, onlyIf_neg (c := cy = 256) y]
    by_cases x : cy = 257
    · rw [if_neg (by omega)] at window
      rw [onlyIf_pos x, if_pos x]
      exact transferX_congr window
    rw [if_neg x, onlyIf_neg (c := cy = 257) x, window]
    by_cases place : (cy - 1) % 8 = 7
    · rw [if_pos place, if_pos (by omega)]
    · rw [if_neg place, if_neg (by omega), if_neg (by omega)]
  · rw [onlyIf_neg w, onlyIf_neg (c := cy = 257) (by omega), onlyIf_neg (c := cy = 256) (by omega), if_neg (by omega),
      if_neg (by omega), if_neg (by omega)]
    by_cases y : sl = -1 ∧ 280 ≤ cy ∧ cy ≤ 304
    · rw [onlyIf_pos y, if_pos y, onlyIf_neg (by omega)]
    · rw [onlyIf_neg y, if_neg y, onlyIf_keeps scrollOf clearAtPreRender (fun _ => rfl)]

end tick

/-- Settles O54: the four steps by their fields, and the ticks by cycle. -/
theorem scrollIncrementsAndTransfers : Obligations.ScrollIncrementsAndTransfers := by
  refine ⟨fun p => ⟨fun on => ?_, fun off => scrollSteps_off (mt (renderingEnabled_iff p).mp off)⟩,
    fun cart gray p => ?_⟩
  · have enabled := (renderingEnabled_iff p).mpr on
    exact ⟨incrementScrollX_on enabled, incrementScrollY_on enabled, transferX_on enabled, transferY_on enabled⟩
  · intro line
    rw [ppuTickOf_v, afterRender]
    by_cases render : line
    · have steps := congrArg (·.1) (renderSteps_scroll cart gray p.scanline p.cycle p)
      simp only [apply_ite Prod.fst] at steps
      rw [onlyIf_pos render]
      simp only [render, true_and]
      exact steps
    · rw [onlyIf_neg render, if_neg (fun h => render h.1), if_neg (fun h => render h.1), if_neg (fun h => render h.1),
        if_neg (by omega)]

end Sys2Proof.Machine
end

section
/-! SUPPORT. The pixel candidates, their resolution and the pixel a tick writes (R365 to R368); and a tick with rendering disabled
(R356). -/

namespace Sys2Proof.Machine

/-! ## The candidates -/

theorem twoBits_toNat (hi lo : Bool) : (twoBits hi lo).toNat = 2 * hi.toNat + lo.toNat := by
  cases hi <;> cases lo <;> rfl

/-- The background candidate, with the background on, as numbers (R365). -/
theorem backgroundPixel_on {p : Ppu} (on : p.mask.getLsbD 3 = true) :
    let place (r : BitVec 16) := (r.getLsbD (15 - p.fineX.toNat)).toNat
    (backgroundPixel p).px.toNat = 2 * place p.bgPatHi + place p.bgPatLo ∧
    (backgroundPixel p).pal.toNat = 2 * place p.bgAttrHi + place p.bgAttrLo := by
  rw [backgroundPixel, if_pos on]
  exact ⟨twoBits_toNat _ _, (BitVec.toNat_setWidth_of_le (by decide)).trans (twoBits_toNat _ _)⟩

theorem backgroundPixel_off {p : Ppu} (off : p.mask.getLsbD 3 = false) : (backgroundPixel p).px = 0 := by
  rw [backgroundPixel, off]
  rfl

/-- A record shows an opaque pixel: its counter is 0, and bit 7 of one of its patterns is set (R365). -/
def Sprite.Shows (r : Sprite) : Prop := r.x = 0 ∧ 2 * (r.patHi.getLsbD 7).toNat + (r.patLo.getLsbD 7).toNat ≠ 0

theorem Sprite.visibleiff (r : Sprite) : r.Shows ↔ r.x = 0 ∧ twoBits (r.patHi.getLsbD 7) (r.patLo.getLsbD 7) ≠ 0 := by
  rw [Sprite.Shows, ← twoBits_toNat]
  exact and_congr_right fun _ => not_congr (BitVec.toNat_inj (y := 0))

/-- The candidate a record gives, at index `i` of the buffer (R365). -/
def Sprite.candidate (r : Sprite) (i : Nat) : Pixel :=
  { px := twoBits (r.patHi.getLsbD 7) (r.patLo.getLsbD 7), pal := (r.attr.extractLsb' 0 2).setWidth 3 + 4
    front := !r.attr.getLsbD 5, zero := decide (i = 0) }

theorem firstOpaque_cons_shows {r : Sprite} (h : r.Shows) (i : Nat) (l : List Sprite) :
    firstOpaque i (r :: l) = r.candidate i := if_pos (r.visibleiff.mp h)

theorem firstOpaque_cons_skip {r : Sprite} (h : ¬r.Shows) (i : Nat) (l : List Sprite) :
    firstOpaque i (r :: l) = firstOpaque (i + 1) l := if_neg (mt r.visibleiff.mpr h)

/-- The first record that shows gives the candidate. -/
theorem firstOpaque_first {l : List Sprite} {i : Nat} {r : Sprite} (place : l[i]? = some r) (visible : r.Shows)
    (before : ∀ (j : Nat) (r' : Sprite), j < i → l[j]? = some r' → ¬r'.Shows) (n : Nat) :
    firstOpaque n l = r.candidate (n + i) := by
  induction l generalizing i n with
  | nil => cases place
  | cons s l ih =>
    cases i with
    | zero =>
      cases place
      exact firstOpaque_cons_shows visible n l
    | succ i =>
      rw [firstOpaque_cons_skip (before 0 s (by omega) rfl), ih place (fun j r' hj => before (j + 1) r' (by omega)),
        Nat.add_assoc, Nat.add_comm 1]

theorem firstOpaque_none {l : List Sprite} (h : ∀ r ∈ l, ¬r.Shows) (n : Nat) : (firstOpaque n l).px = 0 := by
  induction l generalizing n with
  | nil => rfl
  | cons s l ih =>
    rw [firstOpaque_cons_skip (h s (by simp))]
    exact ih (fun r hr => h r (by simp [hr])) (n + 1)

theorem Sprite.candidate_pal (r : Sprite) (i : Nat) : (r.candidate i).pal.toNat = r.attr.toNat % 4 + 4 := by
  have low : ((r.attr.extractLsb' 0 2).setWidth 3 : BitVec 3).toNat = r.attr.toNat % 4 := by
    rw [BitVec.toNat_setWidth_of_le (by decide), BitVec.extractLsb'_toNat, Nat.shiftRight_zero]
  rw [Sprite.candidate, BitVec.toNat_add, low, Nat.mod_eq_of_lt (by simp; omega)]
  rfl

/-- The sprite candidate is that of the first active record that shows (R365). -/
theorem spritePixel_first {p : Ppu} (on : p.mask.getLsbD 4 = true) {i : Nat} {r : Sprite} (active : i < p.sprCount)
    (place : p.spr[i]? = some r) (visible : r.Shows)
    (before : ∀ (j : Nat) (r' : Sprite), j < i → p.spr[j]? = some r' → ¬r'.Shows) : spritePixel p = r.candidate i := by
  rw [spritePixel, if_pos on]
  refine (firstOpaque_first ((List.getElem?_take_of_lt active).trans place) visible (fun j r' hj at_j => ?_) 0).trans
    (congrArg _ (Nat.zero_add i))
  exact before j r' hj ((List.getElem?_take_of_lt (by omega)).symm.trans at_j)

/-- With sprites off, or with no active record that shows, there is no sprite candidate (R365). -/
theorem spritePixel_none {p : Ppu}
    (h : p.mask.getLsbD 4 = false ∨ ∀ (i : Nat) (r : Sprite), i < p.sprCount → p.spr[i]? = some r → ¬r.Shows) :
    (spritePixel p).px = 0 := by
  unfold spritePixel
  rcases h with off | hidden
  · rw [off]
    rfl
  split
  · refine firstOpaque_none (fun r hr => ?_) 0
    obtain ⟨i, inside, rfl⟩ := List.mem_iff_getElem.mp hr
    rw [List.length_take] at inside
    refine hidden i _ (by omega) ?_
    rw [List.getElem_take, List.getElem?_eq_getElem]
  · rfl

/-! ## The pixel drawn -/

/-- The palette address of a pixel as a number (R368). -/
theorem pixelAddress_eq (q : Pixel) : pixelAddress q = BitVec.ofNat 16 (0x3F00 + 4 * q.pal.toNat + q.px.toNat) := by
  have := q.pal.isLt
  have := q.px.isLt
  apply BitVec.eq_of_toNat_eq
  rw [pixelAddress, BitVec.toNat_add, BitVec.toNat_add, BitVec.toNat_mul, BitVec.toNat_setWidth, BitVec.toNat_setWidth,
    BitVec.toNat_ofNat]
  simp only [show BitVec.toNat (0x3F00 : Addr) = 0x3F00 from rfl, show BitVec.toNat (4 : Addr) = 4 from rfl]
  omega

/-- The address of the pixel that is drawn, by the four cases of R367. -/
theorem pixelAddress_resolvePixel (bg fg : Pixel) : pixelAddress (resolvePixel bg fg) = BitVec.ofNat 16 (
    if bg.px = 0 ∧ fg.px = 0 then 0x3F00 + 4 * 0 + 0
    else if bg.px = 0 ∨ (fg.px ≠ 0 ∧ fg.front = true) then 0x3F00 + 4 * fg.pal.toNat + fg.px.toNat
    else 0x3F00 + 4 * bg.pal.toNat + bg.px.toNat) := by
  rw [pixelAddress_eq]
  unfold resolvePixel
  by_cases b : bg.px = 0
  · rw [if_pos b]
    by_cases f : fg.px = 0
    · rw [if_pos f, if_pos ⟨b, f⟩]
      rfl
    · rw [if_neg f, if_neg (fun h => f h.2), if_pos (.inl b)]
  · rw [if_neg b, if_neg (c := bg.px = 0 ∧ fg.px = 0) (fun h => b h.1)]
    by_cases f : fg.px = 0
    · rw [if_pos f, if_neg (fun h => h.elim b fun front => front.1 f)]
    · rw [if_neg f]
      by_cases front : fg.front = true
      · rw [if_pos front, if_pos (.inr ⟨f, front⟩)]
      · rw [if_neg front, if_neg (fun h => h.elim b fun inFront => front inFront.2)]

/-- When the hit registers (R366). -/
theorem registersHit_iff (cy : Nat) (p : Ppu) : registersHit cy p = true ↔
    (backgroundPixel p).px ≠ 0 ∧ (spritePixel p).px ≠ 0 ∧ p.zeroPossible = true ∧ (spritePixel p).zero = true ∧
    p.mask.getLsbD 3 = true ∧ p.mask.getLsbD 4 = true ∧
    (if p.mask.getLsbD 1 = false ∧ p.mask.getLsbD 2 = false then 9 else 1) ≤ cy ∧ cy ≤ 256 := by
  have left : (!p.mask.getLsbD 1 && !p.mask.getLsbD 2) = decide (p.mask.getLsbD 1 = false ∧ p.mask.getLsbD 2 = false) := by
    cases p.mask.getLsbD 1 <;> cases p.mask.getLsbD 2 <;> rfl
  simp only [registersHit, spriteZeroHits, left, Bool.and_eq_true, decide_eq_true_eq, and_assoc]

/-! ## The tick -/

/-- A read in the PPU's address space sees nothing of the pipelines. -/
theorem ppuRead_congr {p q : Ppu} (same : sameButPipelines p q) (cart : Option Cartridge) (gray : BitVec 6) (a : Addr) :
    ppuRead cart gray q a = ppuRead cart gray p a := by
  unfold sameButPipelines at same
  rw [same]
  rfl

/-- The colour that a position's pixel writes (R368). -/
theorem composePixel_frame_read (cart : Option Cartridge) (gray : BitVec 6) (row cy : Nat) (p : Ppu) :
    (composePixel cart gray row cy p).frame.read (256 * row + (cy - 1)) =
      ppuRead cart gray p (pixelAddress (resolvePixel (backgroundPixel p) (spritePixel p))) :=
  Memory.read_write_same _ _ _

/-- In the picture window a tick draws from the shifters and the sprite buffer as it leaves them. -/
theorem ppuTickOf_composed (cart : Option Cartridge) (gray : BitVec 6) {p : Ppu} (drawing : p.onVisible 1 256 = true) :
    let q := ppuTickOf cart gray p
    let drawn := composePixel cart gray p.scanline.toNat p.cycle { q with frame := p.frame, status := p.status }
    q.frame = drawn.frame ∧ q.status = drawn.status := by
  have inside := (onVisible_iff p 1 256).mp drawing
  have notEvaluation := mt (onVisible_iff p 257 257).mp (by omega)
  have status := afterRender_status cart gray p
  rw [if_neg (by omega), if_neg notEvaluation] at status
  have frame := congrArg (fun q => q.frame) (afterRender_frame cart gray p)
  rw [ppuTickOf_drawing cart gray p drawing, advanceCounters_frame]
  generalize afterRender cart gray p = r at status frame
  have frame : r.frame = p.frame := frame
  rw [← status, ← frame]
  exact ⟨rfl, rfl⟩

/-- Step 1 of a tick registers no hit. -/
theorem hit_of_afterRender {cart : Option Cartridge} {gray : BitVec 6} {p : Ppu}
    (hit : (afterRender cart gray p).status.spriteZeroHit = true) : p.status.spriteZeroHit = true := by
  rw [afterRender_status] at hit
  split at hit
  · cases hit
  split at hit <;> exact hit

/-- A hit after a tick was there before, or the pixel drawn registers it (R366). -/
theorem hit_of_ppuTickOf {cart : Option Cartridge} {gray : BitVec 6} {p : Ppu}
    (hit : (ppuTickOf cart gray p).status.spriteZeroHit = true) :
    p.status.spriteZeroHit = true ∨
      (p.onVisible 1 256 = true ∧ registersHit p.cycle (afterRender cart gray p) = true) := by
  rw [ppuTickOf_status] at hit
  split at hit
  · exact .inl hit
  split at hit
  · exact ((Bool.or_eq_true _ _).mp hit).imp_right fun registers => ⟨‹_›, registers⟩
  · exact .inl (hit_of_afterRender hit)

/-- Settles O56: the candidates, their resolution, the hit and the write of one pixel; then the ticks that draw. -/
theorem pixelsAreResolved : Obligations.PixelsAreResolved := by
  refine ⟨fun cart gray row cy p => ?_, fun cart gray p => ⟨ppuTickOf_composed cart gray, fun h => ⟨?_, fun hit => ?_⟩⟩⟩
  · intro bg fg q place pixel visible colour left hit
    refine ⟨backgroundPixel_on, backgroundPixel_off, fun on i r active at_i showing before => ?_, spritePixel_none, ?_, ?_,
      rfl⟩
    · have first : fg = r.candidate i := spritePixel_first on active at_i showing before
      rw [first]
      exact ⟨twoBits_toNat _ _, r.candidate_pal i, rfl, decide_eq_true_iff⟩
    · rw [show q.frame.read _ = _ from composePixel_frame_read cart gray row cy p, pixelAddress_resolvePixel,
        apply_ite (BitVec.ofNat 16), apply_ite (BitVec.ofNat 16), apply_ite (ppuRead cart gray p),
        apply_ite (ppuRead cart gray p)]
    · rw [show q.status = _ from composePixel_status cart gray row cy p, Bool.or_eq_true, registersHit_iff]
  · rw [ppuTickOf_picture, h]
    rfl
  · exact (hit_of_ppuTickOf hit).resolve_right fun drawn => by rw [h] at drawn; cases drawn.1

/-! ## Rendering disabled -/

/-- A shifter with its low byte loaded keeps its high byte (R346). -/
theorem loadLow_eq_word (r : BitVec 16) (b : Byte) : loadLow r b = word (hiByte r) b := by
  rw [loadLow_toNat, word_ofNat, hiByte_toNat, Nat.mul_comm]

/-- With the background off a shifter only takes its load. -/
theorem shifterAfter_off {p : Ppu} (off : p.mask.getLsbD 3 = false) (r : BitVec 16) (low : Byte) :
    shifterAfter p r low = if p.fetchSlot 0 then word (hiByte r) low else r := by
  rw [shifterAfter, off, Bool.and_false, loadLow_eq_word]
  rfl

/-- With the background off no hit registers (R366). -/
theorem registersHit_off {p : Ppu} (off : p.mask.getLsbD 3 = false) (cy : Nat) : registersHit cy p ≠ true := by
  rw [ne_eq, registersHit_iff, off]
  rintro ⟨-, -, -, -, on, -⟩
  cases on

/-- With both layers off the pixel drawn is entry 0 of the palette (R367). -/
theorem composePixel_off (cart : Option Cartridge) (gray : BitVec 6) (row cy : Nat) {p : Ppu}
    (off3 : p.mask.getLsbD 3 = false) (off4 : p.mask.getLsbD 4 = false) :
    (composePixel cart gray row cy p).frame.read (256 * row + (cy - 1)) = ppuRead cart gray p 0x3F00 := by
  rw [composePixel_frame_read, pixelAddress_resolvePixel,
    if_pos ⟨backgroundPixel_off off3, spritePixel_none (.inl off4)⟩]
  rfl

/-- Settles O55: the scroll steps, the shifts and the hit ask for rendering, and both candidates are transparent. -/
theorem renderingDisabledDrawsTheBackdrop : Obligations.RenderingDisabledDrawsTheBackdrop := by
  intro cart gray p off3 off4 q spread next
  have pipeline := ppuTickOf_pipeline cart gray p
  simp only [backgroundOf, Prod.mk.injEq] at pipeline
  obtain ⟨-, -, -, -, patLo, patHi, attrLo, attrHi⟩ := pipeline
  have frame := afterRender_frame cart gray p
  have mask : (afterRender cart gray p).mask = p.mask := congrArg (fun r => r.mask) frame
  refine ⟨?scroll, patLo.trans (shifterAfter_off off3 _ _), patHi.trans (shifterAfter_off off3 _ _),
    attrLo.trans (shifterAfter_off off3 _ _), attrHi.trans (shifterAfter_off off3 _ _), ?sprites, fun hit => ?hit,
    fun drawing => ?pixel⟩
  case scroll =>
    have off : ¬renderingEnabled p = true := by rw [renderingEnabled, off3, off4]; exact Bool.false_ne_true
    obtain ⟨x, y, tx, ty⟩ := scrollSteps_off off
    have tick := scrollIncrementsAndTransfers.2 cart gray p
    simp only [x, y, tx, ty, ite_self] at tick
    exact tick
  case sprites =>
    have still : shiftSprites p.cycle p = p := if_neg (fun h => by rw [off4] at h; cases h.1)
    rw [show q.spr = _ from ppuTickOf_buffer cart gray p, still, ite_self, spriteEvaluation_eq_loop]
    rfl
  case hit =>
    exact (hit_of_ppuTickOf hit).resolve_right fun drawn => registersHit_off (by rw [mask, off3]) _ drawn.2
  case pixel =>
    rw [show q = _ from ppuTickOf_drawing cart gray p drawing, advanceCounters_frameMemory,
      composePixel_off _ _ _ _ (by rw [mask, off3]) (by rw [mask, off4]), ppuRead_congr frame]

end Sys2Proof.Machine
end

section
/-! SUPPORT. The OAM DMA transfer over Bus ticks (R403, R405 to R407): how many CPU slots are left, and what has been copied. -/

namespace Sys2Proof.Machine

/-! ## What a Bus tick leaves alone while a transfer runs -/

/-- No NMI request is pending, and vertical blank raises none (R370). -/
def State.NmiOff (s : State) : Prop := s.ppu.ctrl.getLsbD 7 = false ∧ s.ppu.nmiRequest = false

/-- What every part of a Bus tick leaves alone while a transfer runs: the cartridge, the page and RAM outside the stack page, and
with NMI off the whole RAM and the CPU. -/
structure TransferFrame (s t : State) : Prop where
  cart : t.cart = s.cart
  page : t.bus.dmaPage = s.bus.dmaPage
  ram : ∀ k, k / 256 ≠ 1 → t.bus.ram.read k = s.bus.ram.read k
  quiet : s.NmiOff → t.NmiOff ∧ t.cpu = s.cpu ∧ t.bus.ram = s.bus.ram

theorem TransferFrame.trans {s t u : State} (h : TransferFrame s t) (g : TransferFrame t u) : TransferFrame s u where
  cart := g.cart.trans h.cart
  page := g.page.trans h.page
  ram k hk := (g.ram k hk).trans (h.ram k hk)
  quiet off := by
    obtain ⟨off', cpu, ram⟩ := h.quiet off
    obtain ⟨off'', cpu', ram'⟩ := g.quiet off'
    exact ⟨off'', cpu'.trans cpu, ram'.trans ram⟩

/-- What the PPU tick and the end of a Bus tick leave alone besides: OAM, the DMA registers and the controllers. -/
structure IdleFrame (s t : State) : Prop extends TransferFrame s t where
  oam : t.ppu.oam = s.ppu.oam
  bus : t.bus = { s.bus with ram := t.bus.ram, clock := t.bus.clock }

theorem ppuTick_idle (s : State) : IdleFrame s (ppuTick s) where
  cart := rfl
  page := rfl
  ram _ _ := rfl
  quiet off := by
    have ctrl := congrArg (fun p => p.ctrl) (ppuTickOf_frame s.cart s.params.grayMask s.ppu)
    obtain ⟨low, quiet⟩ := off
    refine ⟨⟨(congrArg (·.getLsbD 7) ctrl).trans low, ?_⟩, rfl, rfl⟩
    refine (ppuTickOf_nmiRequest s.cart s.params.grayMask s.ppu).trans ?_
    rw [low, quiet]
    exact ite_self _
  oam := congrArg (fun p => p.oam) (ppuTickOf_frame s.cart s.params.grayMask s.ppu)
  bus := rfl

/-- The end of a Bus tick writes RAM only in the stack page, and only with a request pending (R407, R444). -/
theorem endBusTick_idle (s : State) : IdleFrame s (endBusTick s) := by
  obtain ⟨quiet, eq⟩ | ⟨pending, n, hn, eq⟩ := endBusTick_cases s
  · rw [eq]
    exact ⟨⟨rfl, rfl, fun _ _ => rfl, fun off => ⟨off, rfl, rfl⟩⟩, rfl, rfl⟩
  · have frame := enter_stackFrame (vector := 0xFFFA) false { s with ppu := { s.ppu with nmiRequest := false } } (by decide)
      (by decide)
    obtain ⟨bytes, outside⟩ := frame
    rw [raiseNmi] at hn
    generalize enter 0xFFFA false { s with ppu := { s.ppu with nmiRequest := false } } = e at bytes outside hn
    have ram (k : Nat) (hk : k / 256 ≠ 1) : e.bus.ram.read k = s.bus.ram.read k :=
      bytes (.ram k) fun j _ h => by
        cases h
        have := (s.cpu.sp - BitVec.ofNat 8 j).isLt
        omega
    rw [eq, hn]
    refine ⟨⟨?_, ?_, ram, fun off => ?_⟩, ?_, ?_⟩
    · exact congrArg (·.cart) outside
    · exact congrArg (·.bus.dmaPage) outside
    · rw [off.2] at pending
      cases pending
    · exact congrArg (·.ppu.oam) outside
    · exact congrArg (fun u : State => { u.bus with clock := e.bus.clock + 1 }) outside

/-! ## The micro-steps (R405) -/

theorem dmaStep_wait {s : State} (dummy : s.bus.dmaDummy = true) (even : s.bus.clock % 2 = 0) : dmaStep s = s := by
  rw [dmaStep, if_pos dummy, if_neg (by omega)]

theorem dmaStep_align {s : State} (dummy : s.bus.dmaDummy = true) (odd : s.bus.clock % 2 = 1) :
    dmaStep s = s.setBus { s.bus with dmaDummy := false } := by
  rw [dmaStep, if_pos dummy, if_pos odd]

theorem dmaStep_read {s : State} (aligned : s.bus.dmaDummy = false) (even : s.bus.clock % 2 = 0) :
    dmaStep s =
      (let r := cpuRead s (word s.bus.dmaPage s.bus.dmaAddr)
       r.2.setBus { r.2.bus with dmaData := r.1 }) := by
  rw [dmaStep, if_neg (by simp [aligned]), if_pos even]

theorem dmaStep_write {s : State} (aligned : s.bus.dmaDummy = false) (odd : s.bus.clock % 2 = 1)
    (more : s.bus.dmaAddr.toNat < 255) :
    dmaStep s =
      { s with
        ppu := { s.ppu with oam := s.ppu.oam.write s.bus.dmaAddr.toNat s.bus.dmaData }
        bus := { s.bus with dmaAddr := s.bus.dmaAddr + 1 } } := by
  rw [dmaStep, if_neg (by simp [aligned]), if_neg (by omega)]
  exact if_neg (show ¬s.bus.dmaAddr + 1 = 0 by bv_omega)

theorem dmaStep_write_last {s : State} (aligned : s.bus.dmaDummy = false) (odd : s.bus.clock % 2 = 1)
    (last : s.bus.dmaAddr.toNat = 255) :
    dmaStep s =
      { s with
        ppu := { s.ppu with oam := s.ppu.oam.write s.bus.dmaAddr.toNat s.bus.dmaData }
        bus := { s.bus with dmaAddr := 0, dmaTransfer := false, dmaDummy := true } } := by
  rw [dmaStep, if_neg (by simp [aligned]), if_neg (by omega)]
  exact if_pos (show s.bus.dmaAddr + 1 = 0 by bv_omega)

/-- A micro-step changes neither the CPU nor RAM, and no NMI comes of it. -/
theorem dmaStep_frame (s : State) : TransferFrame s (dmaStep s) := by
  have frame := dmaStep_eq s
  have bus : (dmaStep s).bus.dmaPage = s.bus.dmaPage ∧ (dmaStep s).bus.ram = s.bus.ram := by
    unfold dmaStep
    dsimp only
    split
    · split <;> exact ⟨rfl, rfl⟩
    split
    · exact ⟨cpuRead_bus_dmaPage s _, cpuRead_bus_ram s _⟩
    · split <;> exact ⟨rfl, rfl⟩
  obtain ⟨page, ram⟩ := bus
  refine ⟨congrArg (·.cart) frame, page, fun k _ => by rw [ram], fun off => ⟨?_, congrArg (·.cpu) frame, ram⟩⟩
  have ctrl := congrArg (·.ppu.ctrl) frame
  have request := congrArg (·.ppu.nmiRequest) frame
  exact ⟨(congrArg (·.getLsbD 7) ctrl).trans off.1, request.trans off.2⟩

/-- How many CPU slots a running transfer still takes, of which the next is the `n`-th since clock 0: its parity is that of its
clock (R405, R406). -/
def dmaSlotsLeft (n : Nat) (b : Bus) : Nat :=
  if b.dmaDummy then 2 * (256 - b.dmaAddr.toNat) + 2 - n % 2 else 2 * (256 - b.dmaAddr.toNat) - n % 2

theorem dmaSlotsLeft_dummy {b : Bus} (dummy : b.dmaDummy = true) (n : Nat) :
    dmaSlotsLeft n b = 2 * (256 - b.dmaAddr.toNat) + 2 - n % 2 := if_pos dummy

theorem dmaSlotsLeft_aligned {b : Bus} (aligned : b.dmaDummy = false) (n : Nat) :
    dmaSlotsLeft n b = 2 * (256 - b.dmaAddr.toNat) - n % 2 := if_neg (Bool.eq_false_iff.mp aligned)

theorem dmaSlotsLeft_pos (n : Nat) (b : Bus) : 1 ≤ dmaSlotsLeft n b := by
  have := b.dmaAddr.isLt
  unfold dmaSlotsLeft
  split <;> omega

/-- A micro-step takes one of the slots left, and ends the transfer with the last. -/
theorem dmaStep_slotsLeft {s : State} {n : Nat} (parity : s.bus.clock % 2 = n % 2) (running : s.bus.dmaTransfer = true) :
    ((dmaStep s).bus.dmaTransfer = true ∧ dmaSlotsLeft n s.bus = dmaSlotsLeft (n + 1) (dmaStep s).bus + 1) ∨
    ((dmaStep s).bus.dmaTransfer = false ∧ (dmaStep s).bus.dmaDummy = true ∧ dmaSlotsLeft n s.bus = 1) := by
  have size := s.bus.dmaAddr.isLt
  cases dummy : s.bus.dmaDummy
  · rw [dmaSlotsLeft_aligned dummy]
    rcases Nat.mod_two_eq_zero_or_one s.bus.clock with even | odd
    · rw [dmaStep_read dummy even]
      refine .inl ⟨(cpuRead_bus_dmaTransfer s _).trans running, ?_⟩
      simp only [dmaSlotsLeft, State.setBus_bus, cpuRead_bus_dmaDummy, cpuRead_bus_dmaAddr, dummy, Bool.false_eq_true,
        if_false]
      omega
    by_cases more : s.bus.dmaAddr.toNat < 255
    · have next : (s.bus.dmaAddr + 1).toNat = s.bus.dmaAddr.toNat + 1 := by bv_omega
      rw [dmaStep_write dummy odd more]
      refine .inl ⟨running, ?_⟩
      simp only [dmaSlotsLeft, dummy, next, Bool.false_eq_true, if_false]
      omega
    · rw [dmaStep_write_last dummy odd (by omega)]
      exact .inr ⟨rfl, rfl, by omega⟩
  · rw [dmaSlotsLeft_dummy dummy]
    rcases Nat.mod_two_eq_zero_or_one s.bus.clock with even | odd
    · rw [dmaStep_wait dummy even]
      refine .inl ⟨running, ?_⟩
      rw [dmaSlotsLeft_dummy dummy]
      omega
    · rw [dmaStep_align dummy odd]
      refine .inl ⟨running, ?_⟩
      simp only [dmaSlotsLeft, State.setBus_bus, Bool.false_eq_true, if_false]
      omega

/-! ## What has been copied -/

/-- Outside the PPU ports a CPU read gives the same byte where the cartridge, the RAM byte and the controllers are the same. -/
theorem cpuRead_byte_congr {s t : State} {a : Addr} (outside : a.toNat ≤ 0x1FFF ∨ 0x4000 ≤ a.toNat)
    (cart : t.cart = s.cart)
    (ram : a.toNat ≤ 0x1FFF → t.bus.ram.read (a.toNat % 0x800) = s.bus.ram.read (a.toNat % 0x800))
    (shift0 : a = 0x4016 → t.bus.ctrlShift0 = s.bus.ctrlShift0)
    (shift1 : a = 0x4017 → t.bus.ctrlShift1 = s.bus.ctrlShift1) : (cpuRead t a).1 = (cpuRead s a).1 := by
  by_cases low : a.toNat ≤ 0x1FFF
  · rw [cpuRead_ram _ low, cpuRead_ram _ low]
    exact ram low
  have high : 0x4000 ≤ a.toNat := outside.resolve_left low
  by_cases c0 : a = 0x4016
  · subst c0
    rw [cpuRead_controller0, cpuRead_controller0, shift0 rfl]
  by_cases c1 : a = 0x4017
  · subst c1
    rw [cpuRead_controller1, cpuRead_controller1, shift1 rfl]
  by_cases free : a.toNat < 0x8000 ∨ s.cart = none
  · rw [cpuRead_unmapped s high c0 c1 free, cpuRead_unmapped t high c0 c1 (by rw [cart]; exact free)]
  · obtain ⟨c, inserted⟩ := Option.ne_none_iff_exists'.mp fun h => free (.inr h)
    rw [cpuRead_prg s inserted (by omega), cpuRead_prg t (cart.trans inserted) (by omega)]

/-- A read of another address leaves the controller registers' next bits alone. -/
theorem cpuRead_ctrlShift (s : State) (a : Addr) :
    (a ≠ 0x4016 → (cpuRead s a).2.bus.ctrlShift0 = s.bus.ctrlShift0) ∧
    (a ≠ 0x4017 → (cpuRead s a).2.bus.ctrlShift1 = s.bus.ctrlShift1) := by
  unfold cpuRead
  split; · exact ⟨fun _ => rfl, fun _ => rfl⟩
  split; · exact ⟨fun _ => rfl, fun _ => rfl⟩
  split; · exact ⟨fun _ => rfl, fun _ => rfl⟩
  split; · exact ⟨fun h => absurd ‹_› h, fun _ => rfl⟩
  split
  · exact ⟨fun _ => rfl, fun h => absurd ‹_› h⟩
  · exact ⟨fun _ => rfl, fun _ => rfl⟩

/-- The transfer copies from a page that nothing changes meanwhile: no port page, and with NMI on not the stack page (R407). -/
def State.SteadyPage (s : State) : Prop :=
  (s.bus.dmaPage.toNat < 0x20 ∧ (s.bus.dmaPage.toNat % 8 ≠ 1 ∨ s.NmiOff)) ∨ 0x40 ≤ s.bus.dmaPage.toNat

/-- The byte a CPU read of the page gives (R405). -/
def State.pageByte (s : State) (k : Byte) : Byte := (cpuRead s (word s.bus.dmaPage k)).1

theorem TransferFrame.steadyPage {s t : State} (h : TransferFrame s t) (steady : s.SteadyPage) : t.SteadyPage := by
  unfold State.SteadyPage
  rw [h.page]
  exact steady.imp_left (And.imp_right (Or.imp_right fun off => (h.quiet off).1))

theorem word_toNat (page k : Byte) : (word page k).toNat = 256 * page.toNat + k.toNat := by
  have := page.isLt
  have := k.isLt
  rw [word_ofNat, BitVec.toNat_ofNat, Nat.mod_eq_of_lt (by omega)]

/-- A byte of a steady page stays the same while the controllers' registers do that it may come from. -/
theorem TransferFrame.pageByte {s t : State} (h : TransferFrame s t) (steady : s.SteadyPage) (k : Byte)
    (shift0 : word s.bus.dmaPage k = 0x4016 → t.bus.ctrlShift0 = s.bus.ctrlShift0)
    (shift1 : word s.bus.dmaPage k = 0x4017 → t.bus.ctrlShift1 = s.bus.ctrlShift1) : t.pageByte k = s.pageByte k := by
  have address := word_toNat s.bus.dmaPage k
  have size := k.isLt
  unfold State.pageByte
  rw [h.page]
  unfold State.SteadyPage at steady
  refine cpuRead_byte_congr (by omega) h.cart (fun low => ?_) shift0 shift1
  obtain ⟨-, notStack | off⟩ | high := steady
  · exact h.ram _ (by omega)
  · rw [(h.quiet off).2.2]
  · omega

/-- How far a transfer is, with the `n`-th CPU slot the next: the bytes below the DMA address are copied, a byte read in the last
slot waits to be written, and the page still holds the others. -/
structure Copying (source : Byte → Byte) (n : Nat) (s : State) : Prop where
  steady : s.SteadyPage
  stored : ∀ k : Byte, k.toNat < s.bus.dmaAddr.toNat → s.ppu.oam.read k.toNat = source k
  waiting : s.bus.dmaDummy = false → n % 2 = 1 → s.bus.dmaData = source s.bus.dmaAddr
  unread : ∀ k : Byte, s.bus.dmaAddr.toNat ≤ k.toNat →
    (s.bus.dmaDummy = false → n % 2 = 1 → k ≠ s.bus.dmaAddr) → s.pageByte k = source k

theorem Copying.idle {source : Byte → Byte} {n : Nat} {s t : State} (h : Copying source n s) (frame : IdleFrame s t) :
    Copying source n t := by
  obtain ⟨steady, stored, waiting, unread⟩ := h
  have bytes (k : Byte) : t.pageByte k = s.pageByte k :=
    frame.pageByte steady k (fun _ => by rw [frame.bus]) (fun _ => by rw [frame.bus])
  have oam := frame.oam
  refine ⟨frame.steadyPage steady, ?_, ?_, ?_⟩ <;> rw [frame.bus]
  · rw [oam]
    exact stored
  · exact waiting
  · exact fun k later notWaiting => (bytes k).trans (unread k later notWaiting)

/-- Writing the waiting byte copies one byte more. -/
theorem Copying.written {source : Byte → Byte} {n : Nat} {s : State} (h : Copying source n s)
    (aligned : s.bus.dmaDummy = false) (odd : n % 2 = 1) {k : Byte} (upTo : k.toNat ≤ s.bus.dmaAddr.toNat) :
    (s.ppu.oam.write s.bus.dmaAddr.toNat s.bus.dmaData).read k.toNat = source k := by
  rw [Memory.read_write]
  split
  · rename_i last
    rw [h.waiting aligned odd, BitVec.eq_of_toNat_eq last]
  · exact h.stored k (by omega)

/-- A read of one byte of the page leaves the others to be read. -/
theorem pageByte_after_read {s : State} (steady : s.SteadyPage) {k j : Byte} (other : k ≠ j) {t : State}
    (frame : TransferFrame s t) (bus : t.bus = { (cpuRead s (word s.bus.dmaPage j)).2.bus with dmaData := t.bus.dmaData }) :
    t.pageByte k = s.pageByte k := by
  have apart {a : Addr} (here : word s.bus.dmaPage k = a) : word s.bus.dmaPage j ≠ a := by
    rintro rfl
    have := congrArg BitVec.toNat here
    rw [word_toNat, word_toNat] at this
    exact other (BitVec.eq_of_toNat_eq (by omega))
  obtain ⟨keeps0, keeps1⟩ := cpuRead_ctrlShift s (word s.bus.dmaPage j)
  refine frame.pageByte steady k (fun here => ?_) (fun here => ?_) <;> rw [bus]
  · exact keeps0 (apart here)
  · exact keeps1 (apart here)

/-- A micro-step carries the copy on (R405). -/
theorem Copying.step {source : Byte → Byte} {n : Nat} {s : State} (h : Copying source n s)
    (parity : s.bus.clock % 2 = n % 2) (goesOn : (dmaStep s).bus.dmaTransfer = true) :
    Copying source (n + 1) (dmaStep s) := by
  have frame := dmaStep_frame s
  cases dummy : s.bus.dmaDummy
  · rcases Nat.mod_two_eq_zero_or_one s.bus.clock with even | odd
    · have byte : s.pageByte s.bus.dmaAddr = source s.bus.dmaAddr := h.unread _ (Nat.le_refl _) fun _ odd => by omega
      rw [dmaStep_read dummy even] at frame ⊢
      have addr := cpuRead_bus_dmaAddr s (word s.bus.dmaPage s.bus.dmaAddr)
      have aligned := (cpuRead_bus_dmaDummy s (word s.bus.dmaPage s.bus.dmaAddr)).trans dummy
      refine ⟨frame.steadyPage h.steady, ?_, fun _ _ => byte.trans (congrArg source addr.symm), fun k later other => ?_⟩
      · simpa using h.stored
      · have differs : k ≠ s.bus.dmaAddr := addr ▸ other aligned (by omega)
        have later : s.bus.dmaAddr.toNat ≤ k.toNat := addr ▸ later
        exact (pageByte_after_read h.steady differs frame rfl).trans (h.unread k later fun _ odd => by omega)
    by_cases more : s.bus.dmaAddr.toNat < 255
    · have next : (s.bus.dmaAddr + 1).toNat = s.bus.dmaAddr.toNat + 1 := by bv_omega
      rw [dmaStep_write dummy odd more] at frame ⊢
      have bytes (k : Byte) := frame.pageByte h.steady k (fun _ => rfl) (fun _ => rfl)
      refine ⟨frame.steadyPage h.steady, fun k copied => h.written dummy (by omega) ?_, fun _ odd => by omega,
        fun k later _ => (bytes k).trans (h.unread k ?_ fun _ _ here => ?_)⟩
      · have copied : k.toNat < (s.bus.dmaAddr + 1).toNat := copied
        omega
      · have later : (s.bus.dmaAddr + 1).toNat ≤ k.toNat := later
        omega
      · have later : (s.bus.dmaAddr + 1).toNat ≤ k.toNat := later
        rw [here] at later
        omega
    · rw [dmaStep_write_last dummy odd (by omega)] at goesOn
      cases goesOn
  · have untouched (k : Byte) (later : s.bus.dmaAddr.toNat ≤ k.toNat) : s.pageByte k = source k :=
      h.unread k later fun aligned => by rw [dummy] at aligned; cases aligned
    rcases Nat.mod_two_eq_zero_or_one s.bus.clock with even | odd
    · rw [dmaStep_wait dummy even]
      exact ⟨h.steady, h.stored, fun aligned => (by rw [dummy] at aligned; cases aligned),
        fun k later _ => untouched k later⟩
    · rw [dmaStep_align dummy odd] at frame ⊢
      have bytes (k : Byte) := frame.pageByte h.steady k (fun _ => rfl) (fun _ => rfl)
      exact ⟨frame.steadyPage h.steady, h.stored, fun _ even => (by omega),
        fun k later _ => (bytes k).trans (untouched k later)⟩

/-- The last micro-step completes the copy. -/
theorem Copying.complete {source : Byte → Byte} {n : Nat} {s : State} (h : Copying source n s)
    (parity : s.bus.clock % 2 = n % 2) (running : s.bus.dmaTransfer = true)
    (ended : (dmaStep s).bus.dmaTransfer = false) (k : Byte) : (dmaStep s).ppu.oam.read k.toNat = source k := by
  have left : dmaSlotsLeft n s.bus = 1 := by
    obtain ⟨goesOn, -⟩ | ⟨-, -, left⟩ := dmaStep_slotsLeft parity running
    · rw [ended] at goesOn
      cases goesOn
    · exact left
  have size := s.bus.dmaAddr.isLt
  have upTo := k.isLt
  cases aligned : s.bus.dmaDummy
  · rw [dmaSlotsLeft_aligned aligned] at left
    rw [dmaStep_write_last aligned (by omega) (by omega)]
    exact h.written aligned (by omega) (by omega)
  · rw [dmaSlotsLeft_dummy aligned] at left
    omega

/-! ## Bus ticks -/

/-- The CPU slot that comes next, counted from clock 0. -/
def nextSlot (clock : Nat) : Nat := (clock + 2) / 3

/-- How many Bus ticks a running transfer still takes, up to its last slot. -/
def dmaTicksLeft (b : Bus) : Nat := 3 * dmaSlotsLeft (nextSlot b.clock) b - (b.clock + 2) % 3

/-- A Bus tick of a running transfer is one with its micro-step, in a CPU slot, or one without. -/
theorem busTick_running {s : State} (running : s.bus.dmaTransfer = true) :
    busTick s = .next (endBusTick (if s.bus.clock % 3 = 0 then dmaStep (ppuTick s) else ppuTick s)) := by
  refine busTick_of_slot ?_
  have running : (ppuTick s).bus.dmaTransfer = true := running
  rw [cpuSlot, if_pos running, show (ppuTick s).bus.clock = s.bus.clock from rfl]
  split <;> rfl

/-- The end of a Bus tick leaves the DMA registers alone, and so what is left of a transfer. -/
theorem endBusTick_dma (s : State) :
    (endBusTick s).bus.dmaTransfer = s.bus.dmaTransfer ∧ (endBusTick s).bus.dmaDummy = s.bus.dmaDummy ∧
    ∀ n, dmaSlotsLeft n (endBusTick s).bus = dmaSlotsLeft n s.bus := by
  rw [(endBusTick_idle s).bus]
  exact ⟨rfl, rfl, fun _ => rfl⟩

/-- One Bus tick of a running transfer: the transfer goes on with one tick less to go and its copy carried on, or this was its
last tick and the copy is complete. -/
theorem busTick_transfer {s : State} (running : s.bus.dmaTransfer = true) :
    ∃ t, busTick s = .next t ∧ TransferFrame s t ∧
      ((t.bus.dmaTransfer = true ∧ dmaTicksLeft s.bus = dmaTicksLeft t.bus + 1 ∧
          ∀ source, Copying source (nextSlot s.bus.clock) s → Copying source (nextSlot t.bus.clock) t) ∨
        (t.bus.dmaTransfer = false ∧ t.bus.dmaDummy = true ∧ dmaTicksLeft s.bus = 1 ∧
          ∀ source, Copying source (nextSlot s.bus.clock) s → ∀ k : Byte, t.ppu.oam.read k.toNat = source k)) := by
  have draws := ppuTick_idle s
  refine ⟨_, busTick_running running, ?_⟩
  by_cases slot : s.bus.clock % 3 = 0
  · rw [if_pos slot]
    have ends := endBusTick_idle (dmaStep (ppuTick s))
    obtain ⟨transfer, dummy, left⟩ := endBusTick_dma (dmaStep (ppuTick s))
    have clock : (endBusTick (dmaStep (ppuTick s))).bus.clock = s.bus.clock + 1 :=
      (endBusTick_request_clock _).2.trans (congrArg (· + 1) (dmaStep_clock (ppuTick s)))
    have parity : (ppuTick s).bus.clock % 2 = nextSlot s.bus.clock % 2 := by
      show s.bus.clock % 2 = _
      unfold nextSlot
      omega
    have next : nextSlot (s.bus.clock + 1) = nextSlot s.bus.clock + 1 := by unfold nextSlot; omega
    refine ⟨(draws.toTransferFrame.trans (dmaStep_frame _)).trans ends.toTransferFrame, ?_⟩
    rw [transfer, dummy, dmaTicksLeft, dmaTicksLeft, left, clock, next]
    obtain ⟨goesOn, slots⟩ | ⟨ended, dummy, slots⟩ := dmaStep_slotsLeft parity running
    · have slots : dmaSlotsLeft (nextSlot s.bus.clock) s.bus = _ := slots
      exact .inl ⟨goesOn, by omega, fun _ copy => ((copy.idle draws).step parity goesOn).idle ends⟩
    · have slots : dmaSlotsLeft (nextSlot s.bus.clock) s.bus = 1 := slots
      refine .inr ⟨ended, dummy, by omega, fun _ copy k => ?_⟩
      rw [ends.oam]
      exact (copy.idle draws).complete parity running ended k
  · rw [if_neg slot]
    have ends := endBusTick_idle (ppuTick s)
    obtain ⟨transfer, -, left⟩ := endBusTick_dma (ppuTick s)
    have clock : (endBusTick (ppuTick s)).bus.clock = s.bus.clock + 1 := (endBusTick_request_clock _).2
    have same : nextSlot (s.bus.clock + 1) = nextSlot s.bus.clock := by unfold nextSlot; omega
    have positive := dmaSlotsLeft_pos (nextSlot s.bus.clock) s.bus
    refine ⟨draws.toTransferFrame.trans ends.toTransferFrame, .inl ⟨transfer.trans running, ?_, fun _ copy => ?_⟩⟩
    · rw [dmaTicksLeft, dmaTicksLeft, left, clock, same, show (ppuTick s).bus = s.bus from rfl]
      omega
    · rw [clock, same]
      exact (copy.idle draws).idle ends

/-- A running transfer runs for the Bus ticks it has left, and is over after the last. -/
theorem busTicks_transfer (m : Nat) {s : State} (running : s.bus.dmaTransfer = true) (left : dmaTicksLeft s.bus = m) :
    (∀ n < m, ∃ t, busTicks n s = .next t ∧ t.bus.dmaTransfer = true) ∧
    ∃ t, busTicks m s = .next t ∧ t.bus.dmaTransfer = false ∧ t.bus.dmaDummy = true ∧ TransferFrame s t ∧
      ∀ source, Copying source (nextSlot s.bus.clock) s → ∀ k : Byte, t.ppu.oam.read k.toNat = source k := by
  induction m generalizing s with
  | zero => obtain ⟨t, -, -, ⟨-, more, -⟩ | ⟨-, -, last, -⟩⟩ := busTick_transfer running <;> omega
  | succ m ih =>
    obtain ⟨t, tick, frame, ⟨goesOn, more, carried⟩ | ⟨ended, dummy, last, copied⟩⟩ := busTick_transfer running
    · obtain ⟨before, u, ticks, ended, dummy, frame', copied⟩ := ih goesOn (by omega)
      refine ⟨fun n hn => ?_, u, ?_, ended, dummy, frame.trans frame',
        fun source copy => copied source (carried source copy)⟩
      · cases n with
        | zero => exact ⟨s, rfl, running⟩
        | succ n =>
          obtain ⟨u, ticks, runs⟩ := before n (by omega)
          exact ⟨u, by rw [busTicks, tick]; exact ticks, runs⟩
      · rw [busTicks, tick]
        exact ticks
    · obtain rfl : m = 0 := by omega
      refine ⟨fun n hn => ?_, t, ?_, ended, dummy, frame, copied⟩
      · obtain rfl : n = 0 := by omega
        exact ⟨s, rfl, running⟩
      · rw [busTicks, tick]
        rfl

/-- A transfer that has just started has copied nothing, and the page holds what it held. -/
theorem copying_start {s : State} (steady : s.SteadyPage) (dummy : s.bus.dmaDummy = true) (start : s.bus.dmaAddr = 0)
    (n : Nat) : Copying s.pageByte n s where
  steady := steady
  stored k copied := by
    rw [start] at copied
    exact absurd copied (Nat.not_lt_zero _)
  waiting aligned := by
    rw [dummy] at aligned
    cases aligned
  unread _ _ _ := rfl

/-- Settles O45: the ticks left just after the start are three for each of 513 or 514 slots, and the copy starts from the page as it
was. -/
theorem dmaCopiesThePage : Obligations.DmaCopiesThePage := by
  intro s _ clock running dummy start page nmiOff slots
  have left : dmaTicksLeft s.bus = 3 * slots := by
    have zero : s.bus.dmaAddr.toNat = 0 := by rw [start]; rfl
    rw [dmaTicksLeft, dmaSlotsLeft_dummy dummy, zero, nextSlot]
    show _ = 3 * if _ then 513 else 514
    split <;> omega
  obtain ⟨before, t, ticks, ended, dummy', frame, copied⟩ := busTicks_transfer (3 * slots) running left
  exact ⟨before, t, ticks, ended, dummy', fun steady => copied s.pageByte (copying_start steady dummy start _),
    fun off => (frame.quiet off).2.1⟩

end Sys2Proof.Machine
end
